-- ==== Sys2Proof/Word.lean ====
section
/-! DEFINITION. The machine's number types (00_scope.md R11: unsigned, bit 0 least significant). -/

namespace Sys2Proof

/-- `u8`: a byte. -/
abbrev Byte := BitVec 8

/-- `u16`: the width of `context_switches` (10_state.md R22). -/
abbrev U16 := BitVec 16

/-- `u32`: the width of `sleep_cycles` and `cycle_counter` (10_state.md R24, R25). -/
abbrev U32 := BitVec 32

end Sys2Proof
end

