-- ==== Sys2Proof/Syntax.lean ====
section
/-! DEFINITION. The operations of spec/opcode_table.json, one constructor per row, and the names their operands range over. -/

namespace Sys2Proof

/-- The five interrupt tasks, each bound to one pending bit (10_state.md R32, 60_exceptions.md R299). -/
inductive Irq
  | rxc | fstart | ledc | latch | tele
deriving DecidableEq, Repr

/-- The six tasks: the background loop and the five interrupt tasks (00_scope.md R16). -/
inductive Task
  | idle
  | irq (t : Irq)
deriving DecidableEq, Repr

/-- The four byte-indexed data spaces (20_memory.md R60). -/
inductive Buf
  | rgb | rx | txled | txt
deriving DecidableEq, Repr

/-- The three DMA buffers, the spaces that carry an ownership tag (10_state.md R28, R31). -/
inductive DmaBuf
  | rx | txled | txt
deriving DecidableEq, Repr

/-- The three DMA channels (10_state.md R34). -/
inductive Channel
  | rx | led | tel
deriving DecidableEq, Repr

/-- The resources of the ceiling table (10_state.md R47). -/
inductive Resource
  | busy | contextSwitches | frames | sleepCycles | rgb | rx | txled | txt | latchTimer
deriving DecidableEq, Repr

/-- A channel's error flag (10_state.md R34). -/
inductive XferErr
  | none | overrun | framing | dmaErr
deriving DecidableEq, Repr

/-- Cause codes 0 to 7 in order (60_exceptions.md R291). -/
inductive Cause
  | none | overrun | framing | dmaErr | submitBusy | ownership | releaseIncomplete | timer
deriving DecidableEq, Repr

/-- The telemetry snapshot F-SNAP, the source's `State` (30_encoding.md R98). -/
structure Snapshot where
  contextSwitches : U16
  frames : Byte
  sleepCycles : U32
  cycleCounter : U32
deriving DecidableEq, Repr

/-- The body of an `ATOMIC` section: a block of primitives in order, sections nesting inside it
(40_arbitration.md R132). `done` ends the block; every other constructor is one primitive and the rest. -/
inductive Block
  | done
  | access (r : Resource) (rest : Block)
  | atomic (r : Resource) (body rest : Block)
  | submit (b : DmaBuf) (c : Channel) (rest : Block)
  | release (b : DmaBuf) (c : Channel) (rest : Block)
  | pend (t : Irq) (rest : Block)
  | wfi (d : U32) (rest : Block)
  | halt (c : Cause) (rest : Block)
deriving DecidableEq, Repr

/-- One constructor per row of spec/opcode_table.json (30_encoding.md R108, R102, R91 to R97). -/
inductive Instr
  -- TASK
  | idle (d : U32)
  | tele
  | rxc
  | fstart
  | ledc
  | latch
  -- PRIM
  | access (r : Resource)
  | atomic (r : Resource) (body : Block)
  | submit (b : DmaBuf) (c : Channel)
  | release (b : DmaBuf) (c : Channel)
  | pend (t : Irq)
  | wfi (d : U32)
  | halt (c : Cause)
  -- HW
  | reset (c0 : U32)
  | rxbyte (b : Byte)
  | ledcell
  | telbyte
  | latchexp
  | teltick
  | cycadv (n : U32)
  | xfererr (ch : Channel) (kind : XferErr)
  -- FUNC
  | enc (p : List Byte)
  | cell (b : Bool)
  | ser (s : Snapshot)
  | des (q : List Byte)
  | dec (z : List Byte)
  | util (a b : Snapshot)
  -- RESERVED
  | reserved06
  | reserved07
  | reserved0F
  | reserved1E
  | reserved1F
  -- DATA
  | fPixel (r g b : Byte)
  | fCell0
  | fCell1
  | fCellRst
  | fTel (s : Snapshot)
  | fLedGroup (g r b : Byte)
deriving DecidableEq, Repr

end Sys2Proof
end

