-- ==== Sys2Proof/Config.lean ====
section
/-! DEFINITION. What an implementation fixes: the fixed parameters of 00_scope.md R8, the open parameters of R9, and the power-up draw of 10_state.md R48. An open parameter is built from an opaque seed, so that no proof sees its value and every value R9 admits is one that some seed gives. -/

namespace Sys2Proof.Config

/-! Fixed parameters (00_scope.md R8). -/

/-- `N_LED`. -/
def nLed : Nat := 24

/-- `FRAME_BYTES`. -/
def frameBytes : Nat := 72

/-- `N_CELLS`. -/
def nCells : Nat := 576

/-- `LED_BUF_BYTES`. -/
def ledBufBytes : Nat := 577

/-- `TELE_BYTES`. -/
def teleBytes : Nat := 13

/-- `SYNC_HEAD`. -/
def syncHead : Byte := 0xAA#8

/-- `SYNC_TAIL`. -/
def syncTail : Byte := 0x55#8

/-- `DUTY_RESET`. -/
def dutyReset : Byte := 0x00#8

/-! Open parameters (00_scope.md R9, R10). -/

/-- DESIGN CHOICE (log 6): the free choice behind `DUTY_SHORT`. -/
opaque dutyShortSeed : Nat

/-- DESIGN CHOICE (log 6): the free choice behind `DUTY_LONG`. -/
opaque dutyLongSeed : Nat

/-- `DUTY_SHORT`: any value from 1 to 254 (R9: `0 < DUTY_SHORT < DUTY_LONG <= 255`). -/
def dutyShort : Byte := BitVec.ofNat 8 (1 + dutyShortSeed % 254)

/-- `DUTY_LONG`: any value from `DUTY_SHORT + 1` to 255 (R9). -/
def dutyLong : Byte :=
  BitVec.ofNat 8 (dutyShort.toNat + 1 + dutyLongSeed % (255 - dutyShort.toNat))

/-- DESIGN CHOICE (log 6): the free choice behind `CELL_TICKS`. -/
opaque cellTicksExtra : Nat

/-- `CELL_TICKS`: any natural number from `DUTY_LONG` on (R9); used by the waveform view only (R224). -/
def cellTicks : Nat := dutyLong.toNat + cellTicksExtra

/-- DESIGN CHOICE (log 6): the free choices behind the three timing constants, which no rule reads (R9). R9 types `BAUD`
as a positive number and the other two as positive durations; that all three are natural numbers, so positive ones from
1 on, is the model's choice. -/
opaque baudSeed : Nat
opaque latchDelaySeed : Nat
opaque telePeriodSeed : Nat

/-- `BAUD`, positive, unit unstated. DESIGN CHOICE (log 6): a natural number. -/
def baud : Nat := baudSeed + 1

/-- `LATCH_DELAY`, positive, unit unstated. DESIGN CHOICE (log 6): a natural number. -/
def latchDelay : Nat := latchDelaySeed + 1

/-- `TELE_PERIOD`, positive, unit unstated. DESIGN CHOICE (log 6): a natural number. -/
def telePeriod : Nat := telePeriodSeed + 1

/-- DESIGN CHOICE (log 7): the free choice behind `PRIO(IDLE)`. -/
opaque prioIdle : Nat

/-- DESIGN CHOICE (log 7): how far each interrupt task's priority lies above the least one it may have. -/
opaque prioAbove : Irq → Nat

/-- `PRIO` (40_arbitration.md R130): larger is more urgent, `PRIO(IDLE) < PRIO(t)` for the five interrupt tasks. Every
function that R9 admits is the one some seeds give (log 7). -/
def prio : Task → Nat
  | .idle => prioIdle
  | .irq t => prioIdle + (prioAbove t + 1)

/-- DESIGN CHOICE (log 9): the value `cycle_counter` happens to hold at power-up (10_state.md R25, R48: any u32). -/
opaque powerUpCycles : U32

end Sys2Proof.Config
end

