-- ==== Sys2Proof/WellFormed.lean ====
section
/-! DEFINITION. Which terms of `Instr` are operations of the spec: the checks on operands that the types do not make. -/

namespace Sys2Proof

/-- The channel a DMA buffer is bound to "for good" (41_dma_buffers.md R150). -/
def DmaBuf.channel : DmaBuf → Channel
  | .rx => .rx
  | .txled => .led
  | .txt => .tel

/-- A buffer stands with its own channel (41_dma_buffers.md R150, R151, R152). -/
def boundTogether (b : DmaBuf) (c : Channel) : Bool := b.channel == c

/-- `OVERRUN` and `FRAMING` are admitted on `rx` only, `DMAERR` on any channel, and `NONE` is no kind
(30_encoding.md R107, 41_dma_buffers.md R156). -/
def kindFits (ch : Channel) (kind : XferErr) : Bool :=
  kind == .dmaErr || (ch == .rx && kind != .none)

/-- Every primitive of an `ATOMIC` body is well formed (40_arbitration.md R132). -/
def Block.wf : Block → Bool
  | .done => true
  | .access _ rest => rest.wf
  | .atomic _ body rest => body.wf && rest.wf
  | .submit b c rest => boundTogether b c && rest.wf
  | .release b c rest => boundTogether b c && rest.wf
  | .pend _ rest => rest.wf
  | .wfi _ rest => rest.wf
  | .halt c rest => c != .none && rest.wf

/-- Operands as the rules admit them: a cause other than `NONE` (60_exceptions.md R297), 72 bytes for `ENC`
(43_ws2812b_encoder.md R210), 11 for `DES` (44_telemetry.md R253). The bound on `DEC`'s stream is the
model's operand encoding (log 3). -/
def Instr.wf : Instr → Bool
  | .atomic _ body => body.wf
  | .submit b c => boundTogether b c
  | .release b c => boundTogether b c
  | .halt c => c != .none
  | .xfererr ch kind => kindFits ch kind
  | .enc p => p.length == 72
  | .des q => q.length == 11
  | .dec z => decide (z.length < 4294967296)
  | .idle _ | .tele | .rxc | .fstart | .ledc | .latch => true
  | .access _ | .pend _ | .wfi _ => true
  | .reset _ | .rxbyte _ | .ledcell | .telbyte | .latchexp | .teltick | .cycadv _ => true
  | .cell _ | .ser _ | .util _ _ => true
  | .reserved06 | .reserved07 | .reserved0F | .reserved1E | .reserved1F => true
  | .fPixel _ _ _ | .fCell0 | .fCell1 | .fCellRst | .fTel _ | .fLedGroup _ _ _ => true

end Sys2Proof
end

