-- ==== Sys2Proof/Decode.lean ====
section
/-! DEFINITION. Decoding and encoding: trace steps F-OP (30_encoding.md R100, R101, R107), the data formats F-PIX, F-CELL, F-LED, F-TEL (R91 to R97), little-endian assembly (R103). Total on any bytes; what is no operation is rejected by name (R102). -/

namespace Sys2Proof

/-! ## Little-endian and bit order -/

/-- `LE16` (30_encoding.md R103). -/
def le16 (v : U16) : List Byte := [v.extractLsb' 0 8, v.extractLsb' 8 8]

/-- `LE32` (30_encoding.md R103). -/
def le32 (v : U32) : List Byte :=
  [v.extractLsb' 0 8, v.extractLsb' 8 8, v.extractLsb' 16 8, v.extractLsb' 24 8]

/-- `le16(b0, b1)` (30_encoding.md R103). -/
def ofLe16 (b0 b1 : Byte) : U16 := BitVec.ofNat 16 (b0.toNat + 256 * b1.toNat)

/-- `le32(b0, b1, b2, b3)` (30_encoding.md R103). -/
def ofLe32 (b0 b1 b2 b3 : Byte) : U32 :=
  BitVec.ofNat 32 (b0.toNat + 256 * b1.toNat + 65536 * b2.toNat + 16777216 * b3.toNat)

/-- The 8 bits of a byte, most significant first (20_memory.md R62, 30_encoding.md R95). -/
def msbBits (v : Byte) : List Bool := (List.range 8).map (fun j => v.getLsbD (7 - j))

/-- The byte whose bits, most significant first, are the list. -/
def ofMsbBits (bits : List Bool) : Byte :=
  BitVec.ofNat 8 (bits.foldl (fun acc b => 2 * acc + b.toNat) 0)

/-- F-CELL: the duty value of one LED bit (30_encoding.md R92). -/
def dutyCell (b : Bool) : Byte := if b then Config.dutyLong else Config.dutyShort

/-- The 11 payload bytes of F-TEL, offsets 1 to 11 (30_encoding.md R97). -/
def snapPayload (s : Snapshot) : List Byte :=
  le32 s.cycleCounter ++ le32 s.sleepCycles ++ le16 s.contextSwitches ++ [s.frames]

/-! ## Classes and ports -/

/-- The class of a row: `op[4:3]` for the operations (30_encoding.md R100), RESERVED (R102), DATA (R101). -/
inductive OpClass
  | task | prim | hw | func | reserved | data
deriving DecidableEq, Repr

/-- The row's class in the opcode table. -/
def Instr.cls : Instr → OpClass
  | .idle _ | .tele | .rxc | .fstart | .ledc | .latch => .task
  | .access _ | .atomic _ _ | .submit _ _ | .release _ _ | .pend _ | .wfi _ | .halt _ => .prim
  | .reset _ | .rxbyte _ | .ledcell | .telbyte | .latchexp | .teltick | .cycadv _ | .xfererr _ _ => .hw
  | .enc _ | .cell _ | .ser _ | .des _ | .dec _ | .util _ _ => .func
  | .reserved06 | .reserved07 | .reserved0F | .reserved1E | .reserved1F => .reserved
  | .fPixel _ _ _ | .fCell0 | .fCell1 | .fCellRst | .fTel _ | .fLedGroup _ _ _ => .data

/-- Only TASK and HW operations may stand in a trace (30_encoding.md R100, R105). -/
def Instr.mayStandInTrace (i : Instr) : Bool := i.cls == .task || i.cls == .hw

/-- Where a row that never stands in a trace comes in: the call port for PRIM and FUNC, or the data stream a
DATA item belongs to (log 2, log 4). -/
inductive Port
  | call      -- F-OP, classes PRIM and FUNC
  | pixels    -- F-PIXEL on the serial input
  | cells     -- one F-CELL on the LED line
  | ledGroup  -- the 24 cells of one LED on the LED line
  | report    -- F-TEL on the serial output
deriving DecidableEq, Repr

/-- Why bytes are no operation or no item. -/
inductive DecodeError
  | empty                 -- no byte at all
  | unknownId (id : Byte) -- a byte with a bit of 7..5 set (30_encoding.md R102)
  | short                 -- fewer operand bytes than the operation has
  | badResource | badBuffer | badChannel | badTask | badCause | badKind | badBit
  | wrongChannel          -- a buffer with another buffer's channel (41_dma_buffers.md R150)
  | kindNotOfChannel      -- OVERRUN or FRAMING off `rx` (30_encoding.md R107)
  | badBlock              -- an ATOMIC body that is no block of primitives
  | badCell               -- a cell that is none of DUTY_SHORT, DUTY_LONG, 0 (30_encoding.md R102)
  | badSync               -- F-TEL without its head or tail (30_encoding.md R102)
  | notACall              -- a TASK, HW or RESERVED id on the call port
deriving DecidableEq, Repr

/-- A parser's answer: the value and the bytes after it. -/
abbrev Parsed (α : Type) := Except DecodeError (α × List Byte)

/-! ## Operand codes. `XFERERR`'s are 30_encoding.md R107, `HALT`'s are the cause codes of 60_exceptions.md R291; the
others are the model's own (DESIGN CHOICE, log 3), the table leaving PRIM and FUNC operands symbolic. -/

/-- Codes in the order of the table of 10_state.md R47 (log 3). -/
def Resource.code : Resource → Byte
  | .busy => 0 | .contextSwitches => 1 | .frames => 2 | .sleepCycles => 3 | .rgb => 4
  | .rx => 5 | .txled => 6 | .txt => 7 | .latchTimer => 8

def Resource.ofCode (b : Byte) : Option Resource :=
  match b.toNat with
  | 0 => some .busy | 1 => some .contextSwitches | 2 => some .frames | 3 => some .sleepCycles
  | 4 => some .rgb | 5 => some .rx | 6 => some .txled | 7 => some .txt | 8 => some .latchTimer
  | _ => none

/-- A buffer has its channel's code (log 3). -/
def DmaBuf.code : DmaBuf → Byte
  | .rx => 0 | .txled => 1 | .txt => 2

def DmaBuf.ofCode (b : Byte) : Option DmaBuf :=
  match b.toNat with
  | 0 => some .rx | 1 => some .txled | 2 => some .txt | _ => none

/-- `ch` (30_encoding.md R107). -/
def Channel.code : Channel → Byte
  | .rx => 0 | .led => 1 | .tel => 2

def Channel.ofCode (b : Byte) : Option Channel :=
  match b.toNat with
  | 0 => some .rx | 1 => some .led | 2 => some .tel | _ => none

/-- Codes in the order of 10_state.md R32 (log 3). -/
def Irq.code : Irq → Byte
  | .rxc => 0 | .fstart => 1 | .ledc => 2 | .latch => 3 | .tele => 4

def Irq.ofCode (b : Byte) : Option Irq :=
  match b.toNat with
  | 0 => some .rxc | 1 => some .fstart | 2 => some .ledc | 3 => some .latch | 4 => some .tele
  | _ => none

/-- `kind` (30_encoding.md R107); `NONE` is no kind. -/
def XferErr.code : XferErr → Byte
  | .none => 0 | .overrun => 1 | .framing => 2 | .dmaErr => 3

def XferErr.ofCode (b : Byte) : Option XferErr :=
  match b.toNat with
  | 1 => some .overrun | 2 => some .framing | 3 => some .dmaErr | _ => Option.none

/-- Cause codes (60_exceptions.md R291); `NONE` is no operand of `HALT` (R297). -/
def Cause.code : Cause → Byte
  | .none => 0 | .overrun => 1 | .framing => 2 | .dmaErr => 3 | .submitBusy => 4 | .ownership => 5
  | .releaseIncomplete => 6 | .timer => 7

def Cause.ofCode (b : Byte) : Option Cause :=
  match b.toNat with
  | 1 => some .overrun | 2 => some .framing | 3 => some .dmaErr | 4 => some .submitBusy
  | 5 => some .ownership | 6 => some .releaseIncomplete | 7 => some .timer | _ => Option.none

/-- One LED bit as an operand byte (log 3). -/
def bitOfCode (b : Byte) : Option Bool :=
  match b.toNat with
  | 0 => some false | 1 => some true | _ => none

/-! ## Operand readers -/

/-- Read one operand, then go on with the bytes after it; an error ends the reading. -/
def after {α β : Type} (p : Parsed α) (k : α → List Byte → Parsed β) : Parsed β :=
  match p with
  | .ok (a, bs) => k a bs
  | .error e => .error e

def read8 : List Byte → Parsed Byte
  | b :: rest => .ok (b, rest)
  | [] => .error .short

def read32 : List Byte → Parsed U32
  | b0 :: b1 :: b2 :: b3 :: rest => .ok (ofLe32 b0 b1 b2 b3, rest)
  | _ => .error .short

/-- An operand byte that stands for a name, or the error that says it does not. -/
def readCode {α : Type} (f : Byte → Option α) (e : DecodeError) : List Byte → Parsed α
  | b :: rest =>
    match f b with
    | some a => .ok (a, rest)
    | none => .error e
  | [] => .error .short

def readBytes (n : Nat) (bs : List Byte) : Parsed (List Byte) :=
  if n ≤ bs.length then .ok (bs.take n, bs.drop n) else .error .short

/-- 11 payload bytes as a snapshot, field by field from the low byte (30_encoding.md R97, 44_telemetry.md R253). -/
def readSnap : List Byte → Parsed Snapshot
  | c0 :: c1 :: c2 :: c3 :: s0 :: s1 :: s2 :: s3 :: w0 :: w1 :: f :: rest =>
    .ok ({ cycleCounter := ofLe32 c0 c1 c2 c3, sleepCycles := ofLe32 s0 s1 s2 s3,
           contextSwitches := ofLe16 w0 w1, frames := f }, rest)
  | _ => .error .short

/-- A buffer and the channel it is bound to (41_dma_buffers.md R150). -/
def readBinding (bs : List Byte) : Parsed (DmaBuf × Channel) :=
  after (readCode DmaBuf.ofCode .badBuffer bs) fun b bs =>
  after (readCode Channel.ofCode .badChannel bs) fun c bs =>
  if boundTogether b c then .ok ((b, c), bs) else .error .wrongChannel

/-- An `ATOMIC` body (log 3): primitives under their own ids, `WFI` with its `d` as in `decodeOp`, 0x00 at the end. Every primitive takes at least
one byte, so as much fuel as there are bytes is enough. -/
def readBlock : Nat → List Byte → Parsed Block
  | 0, _ => .error .badBlock
  | _ + 1, [] => .error .short
  | fuel + 1, id :: bs =>
    match id.toNat with
    | 0x00 => .ok (.done, bs)
    | 0x08 =>
      after (readCode Resource.ofCode .badResource bs) fun r bs =>
      after (readBlock fuel bs) fun k bs =>
      .ok (.access r k, bs)
    | 0x09 =>
      after (readCode Resource.ofCode .badResource bs) fun r bs =>
      after (readBlock fuel bs) fun body bs =>
      after (readBlock fuel bs) fun k bs =>
      .ok (.atomic r body k, bs)
    | 0x0A =>
      after (readBinding bs) fun bc bs =>
      after (readBlock fuel bs) fun k bs =>
      .ok (.submit bc.1 bc.2 k, bs)
    | 0x0B =>
      after (readBinding bs) fun bc bs =>
      after (readBlock fuel bs) fun k bs =>
      .ok (.release bc.1 bc.2 k, bs)
    | 0x0C =>
      after (readCode Irq.ofCode .badTask bs) fun t bs =>
      after (readBlock fuel bs) fun k bs =>
      .ok (.pend t k, bs)
    | 0x0D =>
      after (read32 bs) fun d bs =>
      after (readBlock fuel bs) fun k bs =>
      .ok (.wfi d k, bs)
    | 0x0E =>
      after (readCode Cause.ofCode .badCause bs) fun c bs =>
      after (readBlock fuel bs) fun k bs =>
      .ok (.halt c k, bs)
    | _ => .error .badBlock

/-! ## F-OP: id byte and operands (30_encoding.md R101) -/

/-- Decode one operation from the front of a byte list. A byte with a bit of 7..5 set is no operation (R102). DESIGN
CHOICE (log 3): `WFI`, to which R108 lists no operand and 44_telemetry.md R256 gives a `d`, takes `d` as four bytes, the
low one first. -/
def decodeOp : List Byte → Parsed Instr
  | [] => .error .empty
  | id :: bs =>
    match id.toNat with
    | 0x00 => after (read32 bs) fun d bs => .ok (.idle d, bs)
    | 0x01 => .ok (.tele, bs)
    | 0x02 => .ok (.rxc, bs)
    | 0x03 => .ok (.fstart, bs)
    | 0x04 => .ok (.ledc, bs)
    | 0x05 => .ok (.latch, bs)
    | 0x06 => .ok (.reserved06, bs)
    | 0x07 => .ok (.reserved07, bs)
    | 0x08 => after (readCode Resource.ofCode .badResource bs) fun r bs => .ok (.access r, bs)
    | 0x09 =>
      after (readCode Resource.ofCode .badResource bs) fun r bs =>
      after (readBlock (bs.length + 1) bs) fun body bs =>
      .ok (.atomic r body, bs)
    | 0x0A => after (readBinding bs) fun bc bs => .ok (.submit bc.1 bc.2, bs)
    | 0x0B => after (readBinding bs) fun bc bs => .ok (.release bc.1 bc.2, bs)
    | 0x0C => after (readCode Irq.ofCode .badTask bs) fun t bs => .ok (.pend t, bs)
    | 0x0D => after (read32 bs) fun d bs => .ok (.wfi d, bs)
    | 0x0E => after (readCode Cause.ofCode .badCause bs) fun c bs => .ok (.halt c, bs)
    | 0x0F => .ok (.reserved0F, bs)
    | 0x10 => after (read32 bs) fun c0 bs => .ok (.reset c0, bs)
    | 0x11 => after (read8 bs) fun b bs => .ok (.rxbyte b, bs)
    | 0x12 => .ok (.ledcell, bs)
    | 0x13 => .ok (.telbyte, bs)
    | 0x14 => .ok (.latchexp, bs)
    | 0x15 => .ok (.teltick, bs)
    | 0x16 => after (read32 bs) fun n bs => .ok (.cycadv n, bs)
    | 0x17 =>
      after (readCode Channel.ofCode .badChannel bs) fun ch bs =>
      after (readCode XferErr.ofCode .badKind bs) fun kind bs =>
      if kindFits ch kind then .ok (.xfererr ch kind, bs) else .error .kindNotOfChannel
    | 0x18 => after (readBytes 72 bs) fun p bs => .ok (.enc p, bs)
    | 0x19 => after (readCode bitOfCode .badBit bs) fun b bs => .ok (.cell b, bs)
    | 0x1A => after (readSnap bs) fun s bs => .ok (.ser s, bs)
    | 0x1B => after (readBytes 11 bs) fun q bs => .ok (.des q, bs)
    | 0x1C =>
      after (read32 bs) fun n bs =>
      after (readBytes n.toNat bs) fun z bs =>
      .ok (.dec z, bs)
    | 0x1D =>
      after (readSnap bs) fun a bs =>
      after (readSnap bs) fun b bs =>
      .ok (.util a b, bs)
    | 0x1E => .ok (.reserved1E, bs)
    | 0x1F => .ok (.reserved1F, bs)
    | _ => .error (.unknownId id)

/-! ## Data items -/

/-- The bit a data cell carries; the reset cell carries none (30_encoding.md R92). -/
def cellBit (c : Byte) : Option Bool :=
  if c = Config.dutyLong then some true else if c = Config.dutyShort then some false else none

/-- The bits of a list of data cells, if each is one. -/
def cellBits : List Byte → Option (List Bool)
  | [] => some []
  | c :: cs =>
    match cellBit c, cellBits cs with
    | some b, some bs => some (b :: bs)
    | _, _ => none

/-- One item of a data stream. `ledGroup` takes the 24 cells of one LED (30_encoding.md R93). -/
def decodePort : Port → List Byte → Parsed Instr
  | .call, bs =>
    after (decodeOp bs) fun i rest =>
    if i.cls == .prim || i.cls == .func then .ok (i, rest) else .error .notACall
  | .pixels, r :: g :: b :: rest => .ok (.fPixel r g b, rest)
  | .pixels, _ => .error .short
  | .cells, c :: rest =>
    if c = Config.dutyReset then .ok (.fCellRst, rest)
    else match cellBit c with
      | some true => .ok (.fCell1, rest)
      | some false => .ok (.fCell0, rest)
      | none => .error .badCell
  | .cells, [] => .error .short
  | .ledGroup, bs =>
    after (readBytes 24 bs) fun cs rest =>
    match cellBits cs with
    | some bits =>
      .ok (.fLedGroup (ofMsbBits (bits.take 8)) (ofMsbBits ((bits.drop 8).take 8))
            (ofMsbBits (bits.drop 16)), rest)
    | none => .error .badCell
  | .report, bs =>
    match bs with
    | [] => .error .short
    | head :: bs =>
      if head ≠ Config.syncHead then .error .badSync
      else
        after (readSnap bs) fun s bs =>
        after (read8 bs) fun tail bs =>
        if tail = Config.syncTail then .ok (.fTel s, bs) else .error .badSync

/-! ## Encoding, the other direction -/

/-- The bytes of an `ATOMIC` body (log 3). -/
def Block.encode : Block → List Byte
  | .done => [0x00]
  | .access r k => 0x08 :: r.code :: k.encode
  | .atomic r body k => 0x09 :: r.code :: (body.encode ++ k.encode)
  | .submit b c k => 0x0A :: b.code :: c.code :: k.encode
  | .release b c k => 0x0B :: b.code :: c.code :: k.encode
  | .pend t k => 0x0C :: t.code :: k.encode
  | .wfi d k => 0x0D :: (le32 d ++ k.encode)
  | .halt c k => 0x0E :: c.code :: k.encode

/-- The 24 cells of one LED: green, red, blue, each most significant bit first (30_encoding.md R93). -/
def groupCells (g r b : Byte) : List Byte :=
  (msbBits g ++ msbBits r ++ msbBits b).map dutyCell

/-- The bytes of an operation or item (30_encoding.md R101, R91 to R97). -/
def encode : Instr → List Byte
  | .idle d => 0x00 :: le32 d
  | .tele => [0x01]
  | .rxc => [0x02]
  | .fstart => [0x03]
  | .ledc => [0x04]
  | .latch => [0x05]
  | .reserved06 => [0x06]
  | .reserved07 => [0x07]
  | .access r => [0x08, r.code]
  | .atomic r body => 0x09 :: r.code :: body.encode
  | .submit b c => [0x0A, b.code, c.code]
  | .release b c => [0x0B, b.code, c.code]
  | .pend t => [0x0C, t.code]
  | .wfi d => 0x0D :: le32 d
  | .halt c => [0x0E, c.code]
  | .reserved0F => [0x0F]
  | .reset c0 => 0x10 :: le32 c0
  | .rxbyte b => [0x11, b]
  | .ledcell => [0x12]
  | .telbyte => [0x13]
  | .latchexp => [0x14]
  | .teltick => [0x15]
  | .cycadv n => 0x16 :: le32 n
  | .xfererr ch kind => [0x17, ch.code, kind.code]
  | .enc p => 0x18 :: p
  | .cell b => [0x19, if b then 1 else 0]
  | .ser s => 0x1A :: snapPayload s
  | .des q => 0x1B :: q
  | .dec z => 0x1C :: (le32 (BitVec.ofNat 32 z.length) ++ z)
  | .util a b => 0x1D :: (snapPayload a ++ snapPayload b)
  | .reserved1E => [0x1E]
  | .reserved1F => [0x1F]
  | .fPixel r g b => [r, g, b]
  | .fCell0 => [dutyCell false]
  | .fCell1 => [dutyCell true]
  | .fCellRst => [Config.dutyReset]
  | .fTel s => Config.syncHead :: (snapPayload s ++ [Config.syncTail])
  | .fLedGroup g r b => groupCells g r b

/-- Where an operation or item comes in: none for a trace step or a reserved id, else its port. -/
def Instr.port : Instr → Option Port
  | .fPixel _ _ _ => some .pixels
  | .fCell0 | .fCell1 | .fCellRst => some .cells
  | .fLedGroup _ _ _ => some .ledGroup
  | .fTel _ => some .report
  | i => if i.cls == .prim || i.cls == .func then some .call else none

/-- A trace as bytes (30_encoding.md R101, R105). -/
def encodeTrace (is : List Instr) : List Byte := is.flatMap encode

/-! ## The opcode table's numbering -/

/-- The longest operation whose operands have a fixed length is `ENC` with 73 bytes; an operation that the
table's bits end early is filled with zero bytes up to this length. -/
def paddedBytes : Nat := 80

/-- The bytes of a number, bit 0 the least significant bit of the first byte. -/
def bytesOf (n w : Nat) : List Byte := (List.range n).map (fun k => BitVec.ofNat 8 (w / 256 ^ k))

/-- The stream a table row's bits belong to, read off their number and the id byte: 104 bits are F-TEL; 24 bits
are F-PIXEL unless the id byte is `XFERERR`'s; 8 zero bits are F-CELLRST, no operation of one byte having
id 0 (`IDLE` has five). Everything else is F-OP. -/
def tablePort (nbits w : Nat) : Option Port :=
  if nbits = 104 then some .report
  else if nbits = 24 ∧ w % 256 ≠ 0x17 then some .pixels
  else if nbits = 8 ∧ w % 256 = 0 then some .cells
  else none

/-- The instruction the decoder reads from a table row's bits. -/
def decodeTableWord (nbits w : Nat) : Option Instr :=
  match (match tablePort nbits w with
    | some p => decodePort p (bytesOf (nbits / 8) w)
    | none => decodeOp (bytesOf paddedBytes w)) with
  | .ok (i, _) => some i
  | .error _ => none

end Sys2Proof
end

