-- ==== Sys2Proof/Machine/State.lean ====
section
/-! DEFINITION. The state record of 10_state.md R20 as plain data, the model's own fields beside it, the reasons a step can stop, and the state after reset (R46). -/

namespace Sys2Proof.Machine

/-- One byte-indexed data space (20_memory.md R60): the bytes that hold a value, by rising index. An index that
is not listed holds no value (10_state.md R48; log 10). -/
abbrev Memory := List Host.Cell

/-- Who may touch a DMA buffer (10_state.md R31). -/
inductive Owner
  | cpu | dma
deriving DecidableEq, Repr

/-- A DMA channel's state (10_state.md R34): bytes moved, in the channel's own number of bits, the completion flag, the
error flag. -/
structure DmaChannel (width : Nat) where
  cnt : BitVec width
  done : Bool
  err : XferErr
deriving DecidableEq, Repr

/-- The pending bits of the five interrupt tasks (10_state.md R32). -/
structure PendingBits where
  rxc : Bool
  fstart : Bool
  ledc : Bool
  latch : Bool
  tele : Bool
deriving DecidableEq, Repr

/-- An item of the LED output trace (10_state.md R45). -/
inductive LedItem
  | cell (d : Byte)
  | latch
deriving DecidableEq, Repr

/-- An exact fraction (44_telemetry.md R263 computes in exact rational arithmetic). -/
structure Fraction where
  num : Int
  den : Nat
deriving DecidableEq, Repr

/-- What a called primitive or function returned (the model's own, log 5). -/
inductive Value
  | nothing
  | ok                                              -- `Ok` of SUBMIT, RELEASE
  | errBusy                                         -- `Err(Busy)` of SUBMIT
  | errTransfer (e : XferErr)                       -- `Err(e)` of RELEASE
  | handle (r : Resource)                           -- ACCESS
  | ledBuffer (e : List Byte)                       -- ENC
  | duty (d : Byte)                                 -- CELL
  | report (t : List Byte)                          -- SER
  | snapshot (s : Snapshot)                         -- DES
  | decoded (out : List Snapshot) (pos : Nat)       -- DEC
  | utilisation (u : Fraction)                      -- UTIL
deriving DecidableEq, Repr

/-- An invocation of a row that never stands in a trace (the model's own, log 2). -/
structure Call where
  port : Port
  bytes : List Byte
deriving DecidableEq, Repr

/-- A task run begun and not returned (60_exceptions.md R302, R303): its next section counted from 0, the
priority to restore, and the snapshot `TELE` is building, a value inside that one run (10_state.md R42). -/
structure Activation where
  task : Irq
  next : Nat
  saved : Nat
  snap : Snapshot
deriving DecidableEq, Repr

/-- The state. Fields down to `serTx` are the record of 10_state.md R20; the rest are the model's own. -/
structure State where
  busy : Bool                  -- R21
  contextSwitches : U16        -- R22
  frames : Byte                -- R23
  sleepCycles : U32            -- R24
  cycleCounter : U32           -- R25
  bufRgb : Memory              -- R26
  bufRx : Memory               -- R28
  bufTxled : Memory            -- R28
  bufTxt : Memory              -- R28
  ownerRx : Owner              -- R31
  ownerTxled : Owner           -- R31
  ownerTxt : Owner             -- R31
  pend : PendingBits           -- R32
  latchRunning : Bool          -- R33
  latchExpired : Bool          -- R33
  chRx : DmaChannel 7          -- R34
  chLed : DmaChannel 10        -- R34
  chTel : DmaChannel 4         -- R34
  dutyReg : Byte               -- R35
  halted : Bool                -- R36
  cause : Cause                -- R36
  curPrio : Nat                -- R37
  ledOut : List LedItem        -- R45, oldest first
  serTx : List Byte            -- R45, oldest first
  trace : List Byte            -- log 1: steps the environment has chosen, not yet taken (R101)
  calls : List Call            -- log 2: invocations outside the trace, oldest first
  ret : Value                  -- log 5: what the last call returned
  sectioned : Bool             -- log 8: one section of a task per step (R136), else the whole run (R135)
  stack : List Activation      -- log 8: task runs in progress, innermost first
deriving DecidableEq, Repr

/-- A stop that is no step of the spec: the two accesses that do not exist. Both are safe (the model stops where no
run of the hardware goes) and unreachable from reset. -/
inductive Fault
  /-- Raised by a CPU-side or DMA-side read of a byte that nothing has written since reset (10_state.md R29, R48).
  Safe. -/
  | readNoValue (b : Buf) (i : Nat)
  /-- Raised by an access at an index outside its buffer, which "does not exist" (20_memory.md R60). Safe. -/
  | indexOutOfRange (b : Buf) (i : Nat)
deriving DecidableEq, Repr

/-- Why there is no step. Where a rule's `require` fails "the step does not exist (it is not a fault)"
(00_scope.md R14), so all of these are safe: the model stops exactly where the spec has no step. -/
inductive Refusal
  /-- exec's arm of an instruction that has no meaning yet. Safe. -/
  | notModelled (mnemonic : String)
  /-- Raised by the fetch: the environment has chosen no further step (log 1). Safe. -/
  | endOfTrace
  /-- Raised by the fetch: bytes that are no operation or item (30_encoding.md R102). Safe. -/
  | badEncoding (e : DecodeError)
  /-- Raised by the fetch: bytes left over after a call's one item. Safe. -/
  | trailingBytes
  /-- Raised by the fetch: a PRIM or FUNC operation standing as a step of a trace (30_encoding.md R105). Safe. -/
  | notATraceStep
  /-- Raised by the five reserved ids (30_encoding.md R102). Safe. -/
  | reservedOperation (id : Byte)
  /-- Raised by every step but `RESET` in the halted state (60_exceptions.md R298). Safe. -/
  | machineHalted
  /-- Raised by dispatch: the task's pending bit is 0 (40_arbitration.md R133). Safe. -/
  | notPending (t : Irq)
  /-- Raised by dispatch: `PRIO(t) <= cur_prio` (40_arbitration.md R133). Safe. -/
  | priorityMasked (t : Irq)
  /-- Raised by dispatch: a task of higher priority is pending (40_arbitration.md R133). Safe. -/
  | outranked (t : Irq)
  /-- Raised by a suspended task's next section: a pending task preempts it (40_arbitration.md R137). Safe. -/
  | preempted (t : Irq)
  /-- Raised by `IDLE`: a task is pending (40_arbitration.md R133). Safe. -/
  | taskPending
  /-- Raised by `IDLE`: a task run has not returned (40_arbitration.md R136; log 8). Safe. -/
  | taskRunning
  /-- Raised by `LEDCELL`, `TELBYTE`, `XFERERR`: no transfer in flight and error-free on the channel
  (41_dma_buffers.md R154, R155, R156). Safe. -/
  | noTransfer (c : Channel)
  /-- Raised by `XFERERR`: `OVERRUN` or `FRAMING` off `rx`, or no kind at all (41_dma_buffers.md R156). Safe. -/
  | kindNotOfChannel
  /-- Raised by `LATCHEXP`: the timer is stopped or has signalled already (42_frame_pipeline.md R185). Safe. -/
  | timerNotArmed
  /-- Raised by `ACCESS`: `cur_prio` is below the resource's ceiling (40_arbitration.md R131). Safe. -/
  | belowCeiling (r : Resource)
  /-- Raised by `UTIL`: the two reports have the same cycle counter, `D = 0` (44_telemetry.md R263). Safe. -/
  | noCounterAdvance
  /-- Raised by the meaning of a term that is not well formed; no bytes decode to one. Safe. -/
  | illFormed
  /-- Raised by a data item on an output stream: the hardware sends another byte there (log 4). Safe. -/
  | streamDiffers
  /-- Raised by F-LEDGROUP and F-TEL: the stream does not stand at the start of such an item (log 4). Safe. -/
  | notAtItemStart
deriving DecidableEq, Repr

/-- What a rule answers. -/
abbrev Result := Host.Outcome State Fault Refusal

/-- A snapshot with every field 0. -/
def zeroSnapshot : Snapshot :=
  { contextSwitches := 0, frames := 0, sleepCycles := 0, cycleCounter := 0 }

/-- A channel with no transfer started (10_state.md R34). -/
def idleChannel {width : Nat} : DmaChannel width := { cnt := 0, done := false, err := .none }

/-- No task pending (10_state.md R32). -/
def noPending : PendingBits :=
  { rxc := false, fstart := false, ledc := false, latch := false, tele := false }

/-- The machine after reset (10_state.md R46, 70_reset_and_hazards.md R330): the receiver is armed, every buffer byte is
without a value, `cycle_counter` is a draw (log 9), and the environment has chosen no step yet. -/
def State.reset : State where
  busy := false
  contextSwitches := 0
  frames := 0
  sleepCycles := 0
  cycleCounter := Config.powerUpCycles
  bufRgb := []
  bufRx := []
  bufTxled := []
  bufTxt := []
  ownerRx := .dma
  ownerTxled := .cpu
  ownerTxt := .cpu
  pend := noPending
  latchRunning := false
  latchExpired := false
  chRx := idleChannel
  chLed := idleChannel
  chTel := idleChannel
  dutyReg := 0
  halted := false
  cause := .none
  curPrio := Config.prio .idle
  ledOut := []
  serTx := []
  trace := []
  calls := []
  ret := .nothing
  sectioned := false
  stack := []

end Sys2Proof.Machine
end

