-- ==== Sys2Proof/Machine/Flags.lean ====
section
/-! DEFINITION. Flags and counters: pending bits (10_state.md R32), the latch timer's flags (R33), the counters and their wrapping arithmetic (R27), and the pipeline state read off the flags (R30). -/

namespace Sys2Proof.Machine

/-! ## Pending bits (10_state.md R32) -/

/-- `pend[t]`. -/
def PendingBits.get (p : PendingBits) : Irq → Bool
  | .rxc => p.rxc
  | .fstart => p.fstart
  | .ledc => p.ledc
  | .latch => p.latch
  | .tele => p.tele

/-- `pend[t] <- v`. -/
def PendingBits.set (p : PendingBits) (t : Irq) (v : Bool) : PendingBits :=
  match t with
  | .rxc => { p with rxc := v }
  | .fstart => { p with fstart := v }
  | .ledc => { p with ledc := v }
  | .latch => { p with latch := v }
  | .tele => { p with tele := v }

/-- Some task is pending. -/
def PendingBits.any (p : PendingBits) : Bool := p.rxc || p.fstart || p.ledc || p.latch || p.tele

/-- `pend[t] <- 1`, the control transfer of this hardware (40_arbitration.md R134): setting a bit that is 1 leaves
it 1. -/
def State.request (t : Irq) (s : State) : State := { s with pend := s.pend.set t true }

/-- The five interrupt tasks. -/
def allIrqs : List Irq := [.rxc, .fstart, .ledc, .latch, .tele]

/-- Some pending task other than `t` has a priority above `p`. -/
def State.pendingAbove (s : State) (t : Irq) (p : Nat) : Bool :=
  allIrqs.any (fun u => u != t && s.pend.get u && decide (p < Config.prio (.irq u)))

/-! ## Counters (10_state.md R22 to R25, R27): unsigned, wrapping, no flag, no trap -/

/-- `context_switches <- context_switches +_16 1`. -/
def State.countSwitch (s : State) : State := { s with contextSwitches := s.contextSwitches + 1 }

/-- `frames <- frames +_8 1`. -/
def State.countFrame (s : State) : State := { s with frames := s.frames + 1 }

/-- `sleep_cycles <- sleep_cycles +_32 d`. -/
def State.addSleep (d : U32) (s : State) : State := { s with sleepCycles := s.sleepCycles + d }

/-- `cycle_counter <- cycle_counter +_32 n`. -/
def State.passCycles (n : U32) (s : State) : State := { s with cycleCounter := s.cycleCounter + n }

/-! ## Latch timer (10_state.md R33, 92 D28) -/

/-- Start, or restart from zero (42_frame_pipeline.md R183). -/
def State.startLatchTimer (s : State) : State := { s with latchRunning := true, latchExpired := false }

/-- Stop (42_frame_pipeline.md R184). -/
def State.stopLatchTimer (s : State) : State := { s with latchRunning := false, latchExpired := false }

/-! ## The pipeline state (10_state.md R30): a function of the state, not stored -/

/-- The four states of 42_frame_pipeline.md R180. -/
inductive PipelineState
  | idle | encoding | transmitting | latching
deriving DecidableEq, Repr

/-- `pstate` (10_state.md R30). It has no value in a halted state (90_conflicts.md C11), nor where none of its
four lines applies. -/
def pstate (s : State) : Option PipelineState :=
  if s.halted then none
  else if !s.busy then some .idle
  else if s.pend.fstart then some .encoding
  else if s.ownerTxled == .dma then some .transmitting
  else if s.latchRunning then some .latching
  else none

end Sys2Proof.Machine
end

