-- ==== Sys2Proof/Machine/Ops.lean ====
section
/-! DEFINITION. The shared operations: memory, register files by name, fault entry, task entry and return, resources and ceilings, submit and release. -/

namespace Sys2Proof.Machine

/-! ## Memory (20_memory.md R60): bytes by rising index, nothing listed without a value -/

/-- The canonical form: indexes strictly rising. -/
abbrev Memory.wf (m : Memory) : Prop := m.Pairwise (fun c d => c.1 < d.1)

/-- Every listed index is below `n`. -/
abbrev Memory.within (n : Nat) (m : Memory) : Prop := ∀ c ∈ m, c.1 < n

/-- The byte at an index, none where nothing has been written (log 10). -/
def Memory.read : Memory → Nat → Option Byte
  | [], _ => none
  | c :: m, i => if c.1 = i then some c.2 else Memory.read m i

/-- Bytes with their indexes, from index `i` on. -/
def cellsFrom (i : Nat) : List Byte → Memory
  | [] => []
  | v :: vs => (i, v) :: cellsFrom (i + 1) vs

/-- Write the bytes `vs` at `i, i+1, ..`, every other index as before. -/
def Memory.writeRange (m : Memory) (i : Nat) (vs : List Byte) : Memory :=
  m.filter (fun c => decide (c.1 < i)) ++ cellsFrom i vs ++
    m.filter (fun c => decide (i + vs.length ≤ c.1))

/-- The bytes at `i .. i+n`, none if one of them has no value. -/
def Memory.readRange (m : Memory) (i : Nat) : Nat → Option (List Byte)
  | 0 => some []
  | n + 1 =>
    match m.read i, m.readRange (i + 1) n with
    | some v, some vs => some (v :: vs)
    | _, _ => none

/-- The first index of `i .. i+n` that has no value, `i + n` if there is none. -/
def Memory.firstNoValue (m : Memory) (i : Nat) : Nat → Nat
  | 0 => i
  | n + 1 => if (m.read i).isNone then i else m.firstNoValue (i + 1) n

/-! ## Register files by name -/

/-- The size of a space (10_state.md R26, R28). -/
def bufSize : Buf → Nat
  | .rgb => Config.frameBytes
  | .rx => Config.frameBytes
  | .txled => Config.ledBufBytes
  | .txt => Config.teleBytes

/-- A DMA buffer as a space. -/
def dmaBuf : DmaBuf → Buf
  | .rx => .rx
  | .txled => .txled
  | .txt => .txt

/-- The buffer a channel serves (41_dma_buffers.md R150, `buf(ch)` of R156). -/
def channelBuf : Channel → DmaBuf
  | .rx => .rx
  | .led => .txled
  | .tel => .txt

def State.buf (s : State) : Buf → Memory
  | .rgb => s.bufRgb
  | .rx => s.bufRx
  | .txled => s.bufTxled
  | .txt => s.bufTxt

def State.setBuf (b : Buf) (m : Memory) (s : State) : State :=
  match b with
  | .rgb => { s with bufRgb := m }
  | .rx => { s with bufRx := m }
  | .txled => { s with bufTxled := m }
  | .txt => { s with bufTxt := m }

/-- `owner[b]` (10_state.md R31). -/
def State.owner (s : State) : DmaBuf → Owner
  | .rx => s.ownerRx
  | .txled => s.ownerTxled
  | .txt => s.ownerTxt

def State.setOwner (b : DmaBuf) (o : Owner) (s : State) : State :=
  match b with
  | .rx => { s with ownerRx := o }
  | .txled => { s with ownerTxled := o }
  | .txt => { s with ownerTxt := o }

/-- `c.cnt` as a number (10_state.md R34). -/
def State.chanCnt (s : State) : Channel → Nat
  | .rx => s.chRx.cnt.toNat
  | .led => s.chLed.cnt.toNat
  | .tel => s.chTel.cnt.toNat

/-- `c.done` (10_state.md R34). -/
def State.chanDone (s : State) : Channel → Bool
  | .rx => s.chRx.done
  | .led => s.chLed.done
  | .tel => s.chTel.done

/-- `c.err` (10_state.md R34). -/
def State.chanErr (s : State) : Channel → XferErr
  | .rx => s.chRx.err
  | .led => s.chLed.err
  | .tel => s.chTel.err

/-- Write a channel, whatever the width of its count. -/
def State.updChan (c : Channel) (f : ∀ width, DmaChannel width → DmaChannel width) (s : State) : State :=
  match c with
  | .rx => { s with chRx := f 7 s.chRx }
  | .led => { s with chLed := f 10 s.chLed }
  | .tel => { s with chTel := f 4 s.chTel }

/-- `c.cnt <- 0 ; c.done <- 0 ; c.err <- NONE` (41_dma_buffers.md R151). -/
abbrev State.restart (c : Channel) (s : State) : State := s.updChan c (fun _ _ => idleChannel)

/-- `c.err <- e` (41_dma_buffers.md R156). -/
abbrev State.flagError (c : Channel) (e : XferErr) (s : State) : State :=
  s.updChan c (fun _ v => { v with err := e })

/-! ## Sequencing -/

/-- One line of a rule after another. A raised fault (`halted`) abandons the rest (60_exceptions.md R297). -/
def andThen (r : Result) (k : State → Result) : Result :=
  match r with
  | .next s => if s.halted then .next s else k s
  | .fault f => .fault f
  | .refused q => .refused q

/-- `require halted = 0` (60_exceptions.md R298). -/
def whenRunning (s : State) (k : Result) : Result :=
  if s.halted then .refused .machineHalted else k

/-! ## Fault entry (60_exceptions.md R297) -/

/-- The cause a transfer error becomes (60_exceptions.md R291; the numbers are the same, 30_encoding.md R107). -/
def errCause : XferErr → Cause
  | .none => .none
  | .overrun => .overrun
  | .framing => .framing
  | .dmaErr => .dmaErr

/-- `raise Fatal(c)`: `halted` and `cause` are set, what was written stays, `cur_prio` stays, and no task run goes on
(the runs in progress are abandoned, log 11). -/
def raiseFatal (c : Cause) (s : State) : Result :=
  .next { s with halted := true, cause := c, stack := [] }

/-! ## Task entry and return (60_exceptions.md R302, R303, 40_arbitration.md R133) -/

/-- The conditions of `dispatch(t)` (40_arbitration.md R133). -/
def whenDispatchable (t : Irq) (s : State) (k : Result) : Result :=
  if s.halted then .refused .machineHalted
  else if !s.pend.get t then .refused (.notPending t)
  else if Config.prio (.irq t) ≤ s.curPrio then .refused (.priorityMasked t)
  else if s.pendingAbove t (Config.prio (.irq t)) then .refused (.outranked t)
  else k

/-- Entry: clear the pending bit, remember `cur_prio`, raise it to `PRIO(t)`, start at the first section. -/
def enterTask (t : Irq) (s : State) : State :=
  { s with
    pend := s.pend.set t false
    curPrio := Config.prio (.irq t)
    stack := { task := t, next := 0, saved := s.curPrio, snap := zeroSnapshot } :: s.stack }

/-- Return: restore the remembered `cur_prio`. -/
def leaveTask (s : State) : Result :=
  match s.stack with
  | a :: rest => .next { s with curPrio := a.saved, stack := rest }
  | [] => .next s

/-- Sections in order, until one raises a fault. -/
def runSections : List (State → Result) → State → Result
  | [], s => .next s
  | f :: fs, s => andThen (f s) (runSections fs)

/-- A whole task run as one step (40_arbitration.md R135). -/
def wholeRun (t : Irq) (sections : List (State → Result)) (s : State) : Result :=
  whenDispatchable t s (andThen (runSections sections (enterTask t s)) leaveTask)

/-- After a section of the innermost task run: on to its next section, or return after the last. -/
def nextSection (count : Nat) (s : State) : Result :=
  match s.stack with
  | a :: rest =>
    if a.next + 1 < count then .next { s with stack := { a with next := a.next + 1 } :: rest }
    else leaveTask s
  | [] => .next s

/-- The innermost task run is one of `t`. -/
def State.isRunning (s : State) (t : Irq) : Bool :=
  match s.stack with
  | a :: _ => a.task == t
  | [] => false

/-- The next section of the innermost task run, counted from 0. -/
def State.sectionIndex (s : State) : Nat :=
  match s.stack with
  | a :: _ => a.next
  | [] => 0

/-- One section of a task run as a step (40_arbitration.md R136): the next section of `t` if `t` is the innermost run
and nothing preempts it (R137), else its dispatch and first section. DESIGN CHOICE (log 8): beats and the environment's
moves may fall between two sections; R136 names only tasks there. An `RXBYTE` between `RXC`'s [s2] and [s4] is then lost,
and the next `RXC` halts, or, if 72 bytes come first, takes a shifted frame and raises nothing. -/
def oneSection (t : Irq) (sections : List (State → Result)) (s : State) : Result :=
  if s.halted then .refused .machineHalted
  else if s.isRunning t then
    if s.pendingAbove t s.curPrio then .refused (.preempted t)
    else andThen (runSections ((sections.drop s.sectionIndex).take 1) s) (nextSection sections.length)
  else
    whenDispatchable t s
      (andThen (runSections (sections.take 1) (enterTask t s)) (nextSection sections.length))

/-- A TASK step of an interrupt task, at the granularity the state selects (log 8). -/
def taskStep (t : Irq) (sections : List (State → Result)) (s : State) : Result :=
  if s.sectioned then oneSection t sections s else wholeRun t sections s

/-! ## Resources and ceilings (10_state.md R47) -/

/-- The tasks that access a resource. -/
def accessors : Resource → List Task
  | .busy => [.irq .rxc, .irq .latch]
  | .contextSwitches => [.irq .rxc, .irq .fstart, .irq .ledc, .irq .latch, .irq .tele]
  | .frames => [.irq .latch, .irq .tele]
  | .sleepCycles => [.idle, .irq .tele]
  | .rgb => [.irq .rxc, .irq .fstart]
  | .rx => [.irq .rxc]
  | .txled => [.irq .fstart, .irq .ledc]
  | .txt => [.irq .tele]
  | .latchTimer => [.irq .ledc, .irq .latch]

/-- `ceiling(r)`: the highest priority of any task that accesses `r`. -/
def ceiling (r : Resource) : Nat := (accessors r).foldr (fun t m => max (Config.prio t) m) 0

/-- `cur_prio >= ceiling(r)`, accessor by accessor (40_arbitration.md R131). -/
def State.mayAccess (s : State) (r : Resource) : Bool :=
  (accessors r).all (fun t => decide (Config.prio t ≤ s.curPrio))

/-- `ATOMIC(r) { body }` (40_arbitration.md R132): never lowers the priority, restores it on exit. -/
def atomicSection (r : Resource) (body : State → Result) (s : State) : Result :=
  andThen (body { s with curPrio := max s.curPrio (ceiling r) })
    (fun s' => .next { s' with curPrio := s.curPrio })

/-! ## Submit and release -/

/-- `SUBMIT(b, c)` (41_dma_buffers.md R151): the state and whether it answered `Ok`; `Err(Busy)` changes nothing. -/
def submit (b : DmaBuf) (c : Channel) (s : State) : State × Bool :=
  if s.owner b = .dma then (s, false)
  else ((s.setOwner b .dma).restart c, true)

/-- What `RELEASE` answers (41_dma_buffers.md R152): `Ok`, `Err(e)`, or the fault of a release of nothing. -/
inductive ReleaseAnswer
  | ok
  | err (e : XferErr)
  | incomplete
deriving DecidableEq, Repr

/-- `RELEASE(b, c)` (41_dma_buffers.md R152): an error is looked at before completion, and ownership returns on both
paths. -/
def release (b : DmaBuf) (c : Channel) (s : State) : State × ReleaseAnswer :=
  if s.owner b = .cpu then (s, .incomplete)
  else if s.chanErr c ≠ .none then (s.setOwner b .cpu, .err (s.chanErr c))
  else if !s.chanDone c then (s, .incomplete)
  else (s.setOwner b .cpu, .ok)

/-- `SUBMIT` as every caller uses it: `Busy` is fatal (41_dma_buffers.md R151). -/
def submitOrRaise (b : DmaBuf) (c : Channel) (s : State) : Result :=
  match submit b c s with
  | (s', true) => .next s'
  | (s', false) => raiseFatal .submitBusy s'

/-- `RELEASE` as every caller uses it: an error is fatal (60_exceptions.md R297). -/
def releaseOrRaise (b : DmaBuf) (c : Channel) (s : State) : Result :=
  match release b c s with
  | (s', .ok) => .next s'
  | (s', .err e) => raiseFatal (errCause e) s'
  | (s', .incomplete) => raiseFatal .releaseIncomplete s'

/-- A transfer of `b` on `c` is in flight, unfinished and error-free: the `require` of the beats
(41_dma_buffers.md R153 to R156). -/
def State.inFlight (s : State) (b : DmaBuf) (c : Channel) : Bool :=
  s.owner b == .dma && !s.chanDone c && s.chanErr c == .none

/-- One byte moved: the count advances, and the last byte of `size` sets the completion flag (10_state.md R34; a count
past `size`, which the width can hold and no run reaches, is log 14). -/
def DmaChannel.advance {width : Nat} (size : Nat) (c : DmaChannel width) : DmaChannel width :=
  { c with cnt := c.cnt + 1, done := c.done || c.cnt.toNat + 1 == size }

end Sys2Proof.Machine
end

