-- ==== Sys2Proof/Machine/Operands.lean ====
section
/-! DEFINITION. The operand forms of the rules' pseudocode (00_scope.md R14): CPU-side and DMA-side buffer accesses under the ownership rule (20_memory.md R64), and `TELE`'s local snapshot (10_state.md R42). -/

namespace Sys2Proof.Machine

/-- The ownership tag of a space; `RGB` has none and only the CPU side touches it (10_state.md R26). -/
def State.cpuMayTouch (s : State) : Buf → Bool
  | .rgb => true
  | .rx => s.ownerRx == .cpu
  | .txled => s.ownerTxled == .cpu
  | .txt => s.ownerTxt == .cpu

/-- `MemRead(b, i, n)`, handing the bytes on: `Fatal(OWNERSHIP)` while the DMA side owns `b`. -/
def memRead (b : Buf) (i n : Nat) (s : State) (k : List Byte → Result) : Result :=
  if !s.cpuMayTouch b then raiseFatal .ownership s
  else if bufSize b < i + n then .fault (.indexOutOfRange b (bufSize b))
  else match (s.buf b).readRange i n with
    | some vs => k vs
    | none => .fault (.readNoValue b ((s.buf b).firstNoValue i n))

/-- `MemWrite(b, i, n, vs)` with `n` the length of `vs`: `Fatal(OWNERSHIP)` while the DMA side owns `b`. -/
def memWrite (b : Buf) (i : Nat) (vs : List Byte) (s : State) : Result :=
  if !s.cpuMayTouch b then raiseFatal .ownership s
  else if bufSize b < i + vs.length then .fault (.indexOutOfRange b (bufSize b))
  else .next (s.setBuf b ((s.buf b).writeRange i vs))

/-- `DmaRead(b, i)`, handing the byte on; the beat's `require` has checked the ownership. -/
def dmaRead (b : DmaBuf) (i : Nat) (s : State) (k : Byte → Result) : Result :=
  if bufSize (dmaBuf b) ≤ i then .fault (.indexOutOfRange (dmaBuf b) i)
  else match (s.buf (dmaBuf b)).read i with
    | some v => k v
    | none => .fault (.readNoValue (dmaBuf b) i)

/-- `DmaWrite(b, i, v)`, handing the state on; the beat's `require` has checked the ownership. -/
def dmaWrite (b : DmaBuf) (i : Nat) (v : Byte) (s : State) (k : State → Result) : Result :=
  if bufSize (dmaBuf b) ≤ i then .fault (.indexOutOfRange (dmaBuf b) i)
  else k (s.setBuf (dmaBuf b) ((s.buf (dmaBuf b)).writeRange i [v]))

/-- The snapshot the innermost task run is building (10_state.md R42). -/
def State.localSnap (s : State) : Snapshot :=
  match s.stack with
  | a :: _ => a.snap
  | [] => zeroSnapshot

/-- Write the innermost task run's snapshot. -/
def State.setLocalSnap (v : Snapshot) (s : State) : State :=
  match s.stack with
  | a :: rest => { s with stack := { a with snap := v } :: rest }
  | [] => s

/-- What a call returned (log 5). -/
def State.returning (v : Value) (s : State) : State := { s with ret := v }

end Sys2Proof.Machine
end

