-- ==== Sys2Proof/Machine/Buffers.lean ====
section
/-! DEFINITION. DMA buffers (41_dma_buffers.md): `SUBMIT` and `RELEASE` as calls, the three transfer beats and `XFERERR`. -/

namespace Sys2Proof.Machine

/-! ## SUBMIT and RELEASE (R151, R152) -/

/-- `SUBMIT(b, c)`, keeping what it answers. -/
def callSubmit (b : DmaBuf) (c : Channel) (s : State) : Result :=
  match submit b c s with
  | (s', true) => .next (s'.returning .ok)
  | (s', false) => .next (s'.returning .errBusy)

/-- `RELEASE(b, c)`, keeping what it answers; a release of nothing is fatal (R152). -/
def callRelease (b : DmaBuf) (c : Channel) (s : State) : Result :=
  match release b c s with
  | (s', .ok) => .next (s'.returning .ok)
  | (s', .err e) => .next (s'.returning (.errTransfer e))
  | (s', .incomplete) => raiseFatal .releaseIncomplete s'

/-- `SUBMIT b c` as a call. -/
def execSubmit (b : DmaBuf) (c : Channel) (s : State) : Result := whenRunning s (callSubmit b c s)

/-- `RELEASE b c` as a call. -/
def execRelease (b : DmaBuf) (c : Channel) (s : State) : Result := whenRunning s (callRelease b c s)

/-! ## The beats -/

/-- The body of `RXBYTE b` (R153): the byte goes into the transfer in flight; without one the first such byte flags
`OVERRUN` (R159), a later one is lost. -/
def rxBeat (b : Byte) (s : State) : Result :=
  if s.inFlight .rx .rx then
    dmaWrite .rx s.chRx.cnt.toNat b s fun s' =>
      let s' := { s' with chRx := s.chRx.advance Config.frameBytes }
      .next (if s.chRx.cnt.toNat + 1 = Config.frameBytes then s'.request .rxc else s')
  else if s.chRx.err = .none then
    .next (State.request .rxc { s with chRx := { s.chRx with err := .overrun } })
  else .next s

/-- `RXBYTE b` (R153). DESIGN CHOICE (log 8): where task runs are taken section by section it may come between the
release and the re-arming of an `RXC` run, which R157 rules out for whole runs; that byte is lost, the re-arming clears
its `OVERRUN`, and the frames counted from there (20_memory.md R66) may be shifted by it. -/
def execRxbyte (b : Byte) (s : State) : Result := whenRunning s (rxBeat b s)

/-- The effect of `LEDCELL` once the cell is read (R154): it is played, emitted and counted; the last one completes
the transfer and pends `LEDC`. -/
def sendCell (d : Byte) (s : State) : State :=
  let s' := { s with dutyReg := d, ledOut := s.ledOut ++ [.cell d], chLed := s.chLed.advance Config.ledBufBytes }
  if s.chLed.cnt.toNat + 1 = Config.ledBufBytes then s'.request .ledc else s'

/-- The body of `LEDCELL` (R154). -/
def ledBeat (s : State) : Result :=
  if s.inFlight .txled .led then dmaRead .txled s.chLed.cnt.toNat s fun d => .next (sendCell d s)
  else .refused (.noTransfer .led)

/-- `LEDCELL` (R154). -/
def execLedcell (s : State) : Result := whenRunning s (ledBeat s)

/-- The effect of `TELBYTE` once the byte is read (R155): emitted and counted; completion raises no interrupt (R161). -/
def sendByte (v : Byte) (s : State) : State :=
  { s with serTx := s.serTx ++ [v], chTel := s.chTel.advance Config.teleBytes }

/-- The body of `TELBYTE` (R155). -/
def telBeat (s : State) : Result :=
  if s.inFlight .txt .tel then dmaRead .txt s.chTel.cnt.toNat s fun v => .next (sendByte v s)
  else .refused (.noTransfer .tel)

/-- `TELBYTE` (R155). -/
def execTelbyte (s : State) : Result := whenRunning s (telBeat s)

/-! ## XFERERR (R156) -/

/-- The interrupt a transfer error raises: the channel's own, none for `tel` (R156, R161). -/
def raiseChannel (ch : Channel) (s : State) : State :=
  match ch with
  | .rx => s.request .rxc
  | .led => s.request .ledc
  | .tel => s

/-- `XFERERR ch kind` (R156). -/
def execXfererr (ch : Channel) (kind : XferErr) (s : State) : Result :=
  whenRunning s
    (if !kindFits ch kind then .refused .kindNotOfChannel
     else if s.inFlight (channelBuf ch) ch then
       .next (raiseChannel ch (s.flagError ch kind))
     else .refused (.noTransfer ch))

end Sys2Proof.Machine
end

