-- ==== Sys2Proof/Machine/Telemetry.lean ====
section
/-! DEFINITION. Telemetry and the idle loop (44_telemetry.md): `TELTICK`, `TELE`, `SER`, `DES`, `IDLE`, `WFI`, `CYCADV`, and the host's `DEC` and `UTIL`. -/

namespace Sys2Proof.Machine

/-! ## The serializer (R252, R253) -/

/-- `SER(s)` (R252). -/
def ser (s : Snapshot) : List Byte :=
  [Config.syncHead] ++ le32 s.cycleCounter ++ le32 s.sleepCycles ++ le16 s.contextSwitches ++ [s.frames] ++
    [Config.syncTail]

/-- `DES(q)` (R253) on 11 bytes; no value on another number of bytes. -/
def des (q : List Byte) : Option Snapshot :=
  match readSnap q with
  | .ok (s, []) => some s
  | _ => none

/-! ## TELTICK and TELE (R250, R251) -/

/-- `TELTICK` (R250): a tick while one is pending merges with it. -/
def execTeltick (s : State) : Result := whenRunning s (.next (s.request .tele))

/-- `[s1]`: the previous report's buffer is released if its transfer is over; fatal if it is still leaving (R161). -/
def reclaimReport (s : State) : Result :=
  if s.ownerTxt = .dma then
    if !s.chTel.done && s.chTel.err == .none then raiseFatal .submitBusy s
    else releaseOrRaise .txt .tel s
  else .next s

/-- `[s6]`: build, serialize and submit the report. -/
def sendReport (s : State) : Result :=
  andThen (memWrite .txt 0 (ser s.localSnap) s) (submitOrRaise .txt .tel)

/-- The sections `[s1]` to `[s9]` of `TELE` (R251). -/
def teleSections : List (State → Result) :=
  [reclaimReport,
   fun s => .next (s.setLocalSnap { s.localSnap with cycleCounter := s.cycleCounter }),
   fun s => .next (s.setLocalSnap { s.localSnap with contextSwitches := s.contextSwitches }),
   fun s => .next (s.setLocalSnap { s.localSnap with frames := s.frames }),
   fun s => .next (s.setLocalSnap { s.localSnap with sleepCycles := s.sleepCycles }),
   sendReport,
   fun s => .next { s with contextSwitches := 0 },
   fun s => .next { s with frames := 0 },
   fun s => .next { s with sleepCycles := 0 }]

/-- `TELE` (R251). -/
def execTele (s : State) : Result := taskStep .tele teleSections s

/-! ## The idle loop (R255, R256, R257) -/

/-- `WFI(d)` (R256): the wait keeps all state but the running counter. -/
def waitForInterrupt (d : U32) (s : State) : Result := .next (s.passCycles d)

/-- The body of `IDLE`'s section: read the counter, wait, read it again, add the difference (R255). -/
def measuredWait (d : U32) (s : State) : Result :=
  andThen (waitForInterrupt d s) fun s' => .next (s'.addSleep (s'.cycleCounter - s.cycleCounter))

/-- `IDLE d` (R255) under `dispatch(IDLE)` (40_arbitration.md R133): nothing pending and no task run in progress. -/
def execIdle (d : U32) (s : State) : Result :=
  whenRunning s
    (if s.pend.any then .refused .taskPending
     else if !s.stack.isEmpty then .refused .taskRunning
     else atomicSection .sleepCycles (measuredWait d) s)

/-- `WFI d` as a call (R256). -/
def execWfi (d : U32) (s : State) : Result := whenRunning s (waitForInterrupt d s)

/-- `CYCADV n` (R257). -/
def execCycadv (n : U32) (s : State) : Result := whenRunning s (.next (s.passCycles n))

/-! ## The host side (R262, R263) -/

/-- `DEC` from position `pos` on, `z` the bytes from there; every round drops at least one byte, so as much fuel as
there are bytes is enough (R262). -/
def decFrom : Nat → Nat → List Byte → List Snapshot × Nat
  | 0, pos, _ => ([], pos)
  | fuel + 1, pos, z =>
    if z.length < 13 then ([], pos)
    else if z.getD 0 0 ≠ Config.syncHead then decFrom fuel (pos + 1) (z.drop 1)
    else if z.getD 12 0 ≠ Config.syncTail then decFrom fuel (pos + 1) (z.drop 1)
    else
      match des ((z.drop 1).take 11) with
      | some s =>
        let (out, p) := decFrom fuel (pos + 13) (z.drop 13)
        (s :: out, p)
      | none => ([], pos)

/-- `DEC(z)` (R262): the snapshots found and the position reached. -/
def dec (z : List Byte) : List Snapshot × Nat := decFrom z.length 0 z

/-- `UTIL(a, b)` (R263): `100 (1 - sleep / D)` as the exact fraction `100 (D - sleep) / D`, none where `D = 0`. -/
def util (a b : Snapshot) : Option Fraction :=
  let d := b.cycleCounter - a.cycleCounter
  if d = 0 then none
  else some { num := 100 * ((d.toNat : Int) - (b.sleepCycles.toNat : Int)), den := d.toNat }

/-- The utilisation of each report of a stream: none for the first, "valid only from the second received frame
onward" (R263). -/
def utilSeries : List Snapshot → List (Option Fraction)
  | [] => []
  | a :: rest => none :: (List.zipWith util (a :: rest) rest)

/-! ## The functions as calls -/

/-- `SER s` (R252). -/
def execSer (x : Snapshot) (s : State) : Result := .next (s.returning (.report (ser x)))

/-- `DES q` (R253). -/
def execDes (q : List Byte) (s : State) : Result :=
  match des q with
  | some x => .next (s.returning (.snapshot x))
  | none => .refused .illFormed

/-- `DEC z` (R262). -/
def execDec (z : List Byte) (s : State) : Result :=
  .next (s.returning (.decoded (dec z).1 (dec z).2))

/-- `UTIL a b` (R263): no step where `D = 0`. -/
def execUtil (a b : Snapshot) (s : State) : Result :=
  match util a b with
  | some u => .next (s.returning (.utilisation u))
  | none => .refused .noCounterAdvance

end Sys2Proof.Machine
end

