-- ==== Sys2Proof/Machine/Arbitration.lean ====
section
/-! DEFINITION. Resource arbitration (40_arbitration.md): `ACCESS`, `ATOMIC` and `PEND` as calls, and the block of primitives an `ATOMIC` section runs. -/

namespace Sys2Proof.Machine

/-- `ACCESS(r)` (R131): a handle, if the running priority reaches the ceiling. The hardware checks nothing; where the
contract fails there is no such step (93 I3). -/
def callAccess (r : Resource) (s : State) : Result :=
  if s.mayAccess r then .next (s.returning (.handle r)) else .refused (.belowCeiling r)

/-- `ACCESS r` as a call. -/
def execAccess (r : Resource) (s : State) : Result := whenRunning s (callAccess r s)

/-- `PEND t` as a call (R134). -/
def execPend (t : Irq) (s : State) : Result := whenRunning s (.next (s.request t))

/-- A block of primitives in order, sections nesting and unwinding in order (R132); a raised fault abandons the
rest. -/
def runBlock : Block → State → Result
  | .done, s => .next s
  | .access r rest, s => andThen (callAccess r s) (runBlock rest)
  | .atomic r body rest, s => andThen (atomicSection r (runBlock body) s) (runBlock rest)
  | .submit b c rest, s => andThen (callSubmit b c s) (runBlock rest)
  | .release b c rest, s => andThen (callRelease b c s) (runBlock rest)
  | .pend t rest, s => andThen (.next (s.request t)) (runBlock rest)
  | .wfi d rest, s => andThen (waitForInterrupt d s) (runBlock rest)
  | .halt c rest, s => andThen (raiseFatal c s) (runBlock rest)

/-- `ATOMIC(r) { body }` as a call (R132). -/
def execAtomic (r : Resource) (body : Block) (s : State) : Result :=
  whenRunning s (atomicSection r (runBlock body) s)

end Sys2Proof.Machine
end

