-- ==== Sys2Proof/Machine/Faults.lean ====
section
/-! DEFINITION. Fault entry as a call (60_exceptions.md R297), reset (70_reset_and_hazards.md R330) and the reserved ids (30_encoding.md R102). -/

namespace Sys2Proof.Machine

/-- `HALT c` as a call: `raise Fatal(c)` with a cause other than `NONE` (R297). -/
def execHalt (c : Cause) (s : State) : Result :=
  whenRunning s (if c = .none then .refused .illFormed else raiseFatal c s)

/-- `RESET c0` (R330): every field of the hardware's record; nothing survives. The environment's own data (the steps it
has chosen and the granularity) is no state of the hardware and stays (log 13). -/
def resetTo (c0 : U32) (s : State) : State :=
  { State.reset with cycleCounter := c0, trace := s.trace, calls := s.calls, sectioned := s.sectioned }

/-- `RESET c0`, the only step enabled in the halted state too (R298, R330). -/
def execReset (c0 : U32) (s : State) : Result := .next (resetTo c0 s)

/-- Id 0x06: "not an operation" (R102). -/
def execReserved06 (_s : State) : Result := .refused (.reservedOperation 0x06)

/-- Id 0x07: "not an operation" (R102). -/
def execReserved07 (_s : State) : Result := .refused (.reservedOperation 0x07)

/-- Id 0x0F: "not an operation" (R102). -/
def execReserved0F (_s : State) : Result := .refused (.reservedOperation 0x0F)

/-- Id 0x1E: "not an operation" (R102). -/
def execReserved1E (_s : State) : Result := .refused (.reservedOperation 0x1E)

/-- Id 0x1F: "not an operation" (R102). -/
def execReserved1F (_s : State) : Result := .refused (.reservedOperation 0x1F)

end Sys2Proof.Machine
end

