-- ==== Sys2Proof/Machine/Encoder.lean ====
section
/-! DEFINITION. The encoder and the cell walker (43_ws2812b_encoder.md): `CELL`, `ENC`, their meanings as calls, the inverse `DECLED`, the loop form, the walker and the waveform view. -/

namespace Sys2Proof.Machine

/-! ## The function (R210 to R215) -/

/-- `CELL(b)` (43_ws2812b_encoder.md R211). -/
def cell (b : Bool) : Byte := dutyCell b

/-- `P = [1, 0, 2]`: which byte of an LED's R, G, B the output position `k` takes (R212). -/
def channelByte (k : Nat) : Nat := [1, 0, 2].getD k 0

/-- Cell `n < 576` of `ENC(p)` (R212). -/
def encCell (p : List Byte) (n : Nat) : Byte :=
  cell ((p.getD (3 * (n / 24) + channelByte (n % 24 / 8)) 0).getLsbD (7 - n % 8))

/-- `ENC(p)` in closed form (R212): 576 cells and the reset cell. -/
def enc (p : List Byte) : List Byte :=
  (List.range Config.nCells).map (encCell p) ++ [Config.dutyReset]

/-- `ENC` as the source iterates it (R213): LEDs in order, G, R, B, most significant bit first. -/
def encLoop (p : List Byte) : List Byte :=
  ((List.range Config.nLed).flatMap fun i =>
    groupCells (p.getD (3 * i + 1) 0) (p.getD (3 * i) 0) (p.getD (3 * i + 2) 0)) ++ [Config.dutyReset]

/-- Byte `3 i + P[k]` of `DECLED(e)` (R219): a `DUTY_LONG` cell is a 1 bit. -/
def decLedByte (e : List Byte) (i k : Nat) : Byte :=
  BitVec.ofNat 8 (((List.range 8).map fun j =>
    (if e.getD (24 * i + 8 * k + j) 0 = Config.dutyLong then 1 else 0) * 2 ^ (7 - j)).sum)

/-- `DECLED(e)` (R219): `P` is its own inverse, so byte `3 i + c` comes from output position `P[c]`. -/
def decLed (e : List Byte) : List Byte :=
  (List.range Config.frameBytes).map fun m => decLedByte e (m / 3) (channelByte (m % 3))

/-! ## The cell walker (R216, R217) -/

/-- The walker's states (R216). -/
inductive Walker
  | idle
  | data (i k j : Nat)
  | reset
  | done
deriving DecidableEq, Repr

/-- The walker's state read off the state of the machine (R216). -/
def walkerState (s : State) : Walker :=
  if s.ownerTxled = .cpu then .idle
  else if s.chLed.cnt.toNat < 576 then .data (s.chLed.cnt.toNat / 24) (s.chLed.cnt.toNat % 24 / 8) (s.chLed.cnt.toNat % 8)
  else if s.chLed.cnt.toNat = 576 then .reset
  else .done

/-- What the walker sends, computed from `RGB` when it is sent; no step in `W_IDLE` and `W_DONE` (R217). -/
def walkerSends (rgb : List Byte) : Walker → Option Byte
  | .data i k j => some (cell ((rgb.getD (3 * i + channelByte k) 0).getLsbD (7 - j)))
  | .reset => some Config.dutyReset
  | .idle | .done => none

/-- Where the walker goes after it has sent its cell (R217). -/
def walkerNext : Walker → Walker
  | .data i k j =>
    if j < 7 then .data i k (j + 1)
    else if k < 2 then .data i (k + 1) 0
    else if i < 23 then .data (i + 1) 0 0
    else .reset
  | .reset => .done
  | .done => .done
  | .idle => .idle

/-! ## Waveform view (R224): optional, no rule reads it -/

/-- A cell as `CELL_TICKS` levels of the line, high for the first `d` ticks. PRESUMED (log 6): high-first is the
spec's general knowledge, not the source's. -/
def waveform (d : Byte) : List Bool :=
  List.replicate d.toNat true ++ List.replicate (Config.cellTicks - d.toNat) false

/-! ## Meanings -/

/-- `ENC p` as a call (R210, R212): no state but the model's `ret` changes. -/
def execEnc (p : List Byte) (s : State) : Result :=
  if p.length = Config.frameBytes then .next (s.returning (.ledBuffer (enc p))) else .refused .illFormed

/-- `CELL b` as a call (R211). -/
def execCell (b : Bool) (s : State) : Result := .next (s.returning (.duty (cell b)))

end Sys2Proof.Machine
end

