-- ==== Sys2Proof/Machine/Formats.lean ====
section
/-! DEFINITION. The data-format rows as items crossing the hardware's edge (30_encoding.md R91 to R97; log 4): an item is executed as the beats that carry its bytes, an output item only where the hardware sends exactly those bytes. -/

namespace Sys2Proof.Machine

/-- One cell on the LED line: the `LEDCELL` beat (41_dma_buffers.md R154) if it sends `d`. -/
def carryCell (d : Byte) (s : State) : Result :=
  if s.inFlight .txled .led then
    dmaRead .txled s.chLed.cnt.toNat s fun d' =>
      if d' = d then .next (sendCell d' s) else .refused .streamDiffers
  else .refused (.noTransfer .led)

/-- Cells on the LED line, one beat each. -/
def carryCells : List Byte → State → Result
  | [], s => .next s
  | d :: ds, s => andThen (carryCell d s) (carryCells ds)

/-- One byte on the serial output: the `TELBYTE` beat (41_dma_buffers.md R155) if it sends `v`. -/
def carryByte (v : Byte) (s : State) : Result :=
  if s.inFlight .txt .tel then
    dmaRead .txt s.chTel.cnt.toNat s fun v' =>
      if v' = v then .next (sendByte v' s) else .refused .streamDiffers
  else .refused (.noTransfer .tel)

/-- Bytes on the serial output, one beat each. -/
def carryBytes : List Byte → State → Result
  | [], s => .next s
  | v :: vs, s => andThen (carryByte v s) (carryBytes vs)

/-- F-PIXEL: the three bytes of one LED arrive in the order R, G, B (R91, 20_memory.md R63). -/
def execFPixel (r g b : Byte) (s : State) : Result :=
  whenRunning s (andThen (rxBeat r s) fun s => andThen (rxBeat g s) (rxBeat b))

/-- F-CELL0: the cell of a 0 bit leaves (R92). -/
def execFCell0 (s : State) : Result := whenRunning s (carryCell (cell false) s)

/-- F-CELL1: the cell of a 1 bit leaves (R92). -/
def execFCell1 (s : State) : Result := whenRunning s (carryCell (cell true) s)

/-- F-CELLRST: the reset cell leaves (R96). -/
def execFCellRst (s : State) : Result := whenRunning s (carryCell Config.dutyReset s)

/-- F-TEL: the 13 bytes of one report leave, from its first byte (R97). -/
def execFTel (x : Snapshot) (s : State) : Result :=
  whenRunning s
    (if s.chTel.cnt.toNat = 0 then carryBytes (ser x) s else .refused .notAtItemStart)

/-- F-LEDGROUP: the 24 cells of one LED leave, from its first cell (R93). -/
def execFLedGroup (g r b : Byte) (s : State) : Result :=
  whenRunning s
    (if s.chLed.cnt.toNat % 24 = 0 ∧ s.chLed.cnt.toNat < Config.nCells then carryCells (groupCells g r b) s
     else .refused .notAtItemStart)

end Sys2Proof.Machine
end

