-- ==== Sys2Proof/Machine/Pipeline.lean ====
section
/-! DEFINITION. The frame pipeline (42_frame_pipeline.md): the tasks `RXC`, `FSTART`, `LEDC`, `LATCH` by their sections, and the timer event `LATCHEXP`. -/

namespace Sys2Proof.Machine

/-- `[s1]` of the four pipeline tasks (R188). -/
def countRun (s : State) : Result := .next s.countSwitch

/-! ## RXC (R181) -/

/-- `[s3]`: an idle pipeline takes the frame, copied before the re-arm (90_conflicts.md C1), and requests `FSTART`; a
busy one drops it (R187). -/
def takeFrame (s : State) : Result :=
  if s.busy then .next s
  else memRead .rx 0 Config.frameBytes s fun p =>
    andThen (memWrite .rgb 0 p s) fun s => .next (State.request .fstart { s with busy := true })

/-- The sections of `RXC`. -/
def rxcSections : List (State → Result) :=
  [countRun, releaseOrRaise .rx .rx, takeFrame, submitOrRaise .rx .rx]

/-- `RXC` (R181). -/
def execRxc (s : State) : Result := taskStep .rxc rxcSections s

/-! ## FSTART (R182) -/

/-- `[s2]`: all 577 bytes of the LED buffer from the working array. -/
def fillLedBuffer (s : State) : Result :=
  memRead .rgb 0 Config.frameBytes s fun p => memWrite .txled 0 (enc p) s

/-- The sections of `FSTART`. -/
def fstartSections : List (State → Result) :=
  [countRun, fillLedBuffer, submitOrRaise .txled .led]

/-- `FSTART` (R182). -/
def execFstart (s : State) : Result := taskStep .fstart fstartSections s

/-! ## LEDC (R183) -/

/-- The sections of `LEDC`. -/
def ledcSections : List (State → Result) :=
  [countRun, releaseOrRaise .txled .led, fun s => .next s.startLatchTimer]

/-- `LEDC` (R183). -/
def execLedc (s : State) : Result := taskStep .ledc ledcSections s

/-! ## LATCHEXP and LATCH (R185, R184) -/

/-- `LATCHEXP` (R185). -/
def execLatchexp (s : State) : Result :=
  whenRunning s
    (if s.latchRunning && !s.latchExpired then
       .next (State.request .latch { s with latchExpired := true, ledOut := s.ledOut ++ [.latch] })
     else .refused .timerNotArmed)

/-- The sections of `LATCH`. -/
def latchSections : List (State → Result) :=
  [countRun, fun s => .next s.stopLatchTimer, fun s => .next { s with busy := false },
   fun s => .next s.countFrame]

/-- `LATCH` (R184). -/
def execLatch (s : State) : Result := taskStep .latch latchSections s

end Sys2Proof.Machine
end

