-- ==== Sys2Proof/Machine/Dispatch.lean ====
section
/-! DEFINITION. One arm per constructor of Instr, each one direct call of that instruction's meaning. -/

namespace Sys2Proof.Machine

def exec (i : Instr) (s : State) : Host.Outcome State Fault Refusal :=
  match i with
  -- TASK
  | .idle d => Sys2Proof.Machine.execIdle d s
  | .tele => Sys2Proof.Machine.execTele s
  | .rxc => Sys2Proof.Machine.execRxc s
  | .fstart => Sys2Proof.Machine.execFstart s
  | .ledc => Sys2Proof.Machine.execLedc s
  | .latch => Sys2Proof.Machine.execLatch s
  -- PRIM
  | .access r => Sys2Proof.Machine.execAccess r s
  | .atomic r body => Sys2Proof.Machine.execAtomic r body s
  | .submit b c => Sys2Proof.Machine.execSubmit b c s
  | .release b c => Sys2Proof.Machine.execRelease b c s
  | .pend t => Sys2Proof.Machine.execPend t s
  | .wfi d => Sys2Proof.Machine.execWfi d s
  | .halt c => Sys2Proof.Machine.execHalt c s
  -- HW
  | .reset c0 => Sys2Proof.Machine.execReset c0 s
  | .rxbyte b => Sys2Proof.Machine.execRxbyte b s
  | .ledcell => Sys2Proof.Machine.execLedcell s
  | .telbyte => Sys2Proof.Machine.execTelbyte s
  | .latchexp => Sys2Proof.Machine.execLatchexp s
  | .teltick => Sys2Proof.Machine.execTeltick s
  | .cycadv n => Sys2Proof.Machine.execCycadv n s
  | .xfererr ch kind => Sys2Proof.Machine.execXfererr ch kind s
  -- FUNC
  | .enc p => Sys2Proof.Machine.execEnc p s
  | .cell b => Sys2Proof.Machine.execCell b s
  | .ser x => Sys2Proof.Machine.execSer x s
  | .des q => Sys2Proof.Machine.execDes q s
  | .dec z => Sys2Proof.Machine.execDec z s
  | .util a b => Sys2Proof.Machine.execUtil a b s
  -- RESERVED
  | .reserved06 => Sys2Proof.Machine.execReserved06 s
  | .reserved07 => Sys2Proof.Machine.execReserved07 s
  | .reserved0F => Sys2Proof.Machine.execReserved0F s
  | .reserved1E => Sys2Proof.Machine.execReserved1E s
  | .reserved1F => Sys2Proof.Machine.execReserved1F s
  -- DATA
  | .fPixel r g b => Sys2Proof.Machine.execFPixel r g b s
  | .fCell0 => Sys2Proof.Machine.execFCell0 s
  | .fCell1 => Sys2Proof.Machine.execFCell1 s
  | .fCellRst => Sys2Proof.Machine.execFCellRst s
  | .fTel x => Sys2Proof.Machine.execFTel x s
  | .fLedGroup g r b => Sys2Proof.Machine.execFLedGroup g r b s

end Sys2Proof.Machine
end

