-- ==== Sys2Proof/Machine/Fetch.lean ====
section
/-! DEFINITION. Where the next operation comes from (log 1, log 2): the calls waiting at the ports first, else the front of the trace; and how a table word is placed there. -/

namespace Sys2Proof.Machine

/-- The next operation and the state with its bytes taken. A call holds one item; a trace holds TASK and HW steps only
(30_encoding.md R105), and a reserved id there is left to its own refusal (R102). -/
def fetch (s : State) : Except Refusal (Instr × State) :=
  match s.calls with
  | c :: cs =>
    match decodePort c.port c.bytes with
    | .ok (i, []) => .ok (i, { s with calls := cs })
    | .ok (_, _ :: _) => .error .trailingBytes
    | .error e => .error (.badEncoding e)
  | [] =>
    match s.trace with
    | [] => .error .endOfTrace
    | b :: bs =>
      match decodeOp (b :: bs) with
      | .ok (i, rest) =>
        if i.cls == .prim || i.cls == .func then .error .notATraceStep
        else .ok (i, { s with trace := rest })
      | .error e => .error (.badEncoding e)

/-- The bytes of a table row's word, cut to the operation they hold: the bits above `nbits` are zero bytes that an
operation with unencoded operands takes as those operands. -/
def tableBytes (nbits w : Nat) : List Byte :=
  let padded := bytesOf paddedBytes w
  match decodeOp padded with
  | .ok (_, rest) => padded.take (padded.length - rest.length)
  | .error _ => bytesOf (nbits / 8) w

/-- The conditions under which the dispatcher takes `t` next (log 15): its pending bit and no other, since which task runs
"is fixed by which bit was pending" (60_exceptions.md R302), and the least running priority, below `PRIO(t)` whatever
`PRIO` is (40_arbitration.md R133). -/
def State.selectIrq (t : Irq) (s : State) : State :=
  { s with pend := noPending.set t true, curPrio := 0 }

/-- The state in which the dispatcher takes a trace's next step: an interrupt task is selected, `IDLE` has nothing
pending (40_arbitration.md R133), any other step needs nothing (log 15). -/
def selectTask (i : Instr) (s : State) : State :=
  match i with
  | .idle _ => { s with pend := noPending }
  | .tele => s.selectIrq .tele
  | .rxc => s.selectIrq .rxc
  | .fstart => s.selectIrq .fstart
  | .ledc => s.selectIrq .ledc
  | .latch => s.selectIrq .latch
  | _ => s

/-- Put a table word where the fetch takes its next operation (log 15): a data item and a PRIM or FUNC operation at its
port, everything else at the front of the trace, no call waiting before it. -/
def placeWord (s : State) (nbits w : Nat) : State :=
  match tablePort nbits w with
  | some p => { s with calls := { port := p, bytes := bytesOf (nbits / 8) w } :: s.calls }
  | none =>
    let bs := tableBytes nbits w
    match decodeOp bs with
    | .ok (i, _) =>
      if i.cls == .prim || i.cls == .func then
        { s with calls := { port := .call, bytes := bs } :: s.calls }
      else
        selectTask i { s with trace := bs ++ s.trace, calls := [] }
    | .error _ => { s with trace := bs ++ s.trace, calls := [] }

end Sys2Proof.Machine
end

