-- ==== Sys2Proof/Machine/Step.lean ====
section
/-! DEFINITION. One step: fetch the next operation and run it. -/

namespace Sys2Proof.Machine

/-- One step of the machine (00_scope.md R7: one atomic application of one operation rule). -/
def step (s : State) : Host.Outcome State Fault Refusal :=
  match fetch s with
  | .ok (i, s') => exec i s'
  | .error q => .refused q

/-- `s` with a table row's word placed where `step` takes its next operation (log 1, log 15). -/
def State.withFetchWord (s : State) (nbits w : Nat) : State := placeWord s nbits w

end Sys2Proof.Machine
end

