-- ==== Sys2Proof/Machine/Traces.lean ====
section
/-! DEFINITION. Runs of operations in order and the pseudo-operations of 30_encoding.md R105, R106: shorthands that add no behaviour. -/

namespace Sys2Proof.Machine

/-- Operations one after another, stopping at the first fault or refusal: a trace is legal from a state if this answers a
next state (30_encoding.md R105). -/
def runTrace : List Instr → State → Result
  | [], s => .next s
  | i :: is, s =>
    match exec i s with
    | .next s' => runTrace is s'
    | .fault f => .fault f
    | .refused q => .refused q

/-- `FRAME b0 .. b71` (R106). -/
def frameTrace (p : List Byte) : List Instr := p.map .rxbyte

/-- `REFRESH` (R106). -/
def refreshTrace : List Instr := List.replicate Config.ledBufBytes .ledcell

/-- `REPORT` (R106). -/
def reportTrace : List Instr := List.replicate Config.teleBytes .telbyte

/-- `CYCLE b0 .. b71` (R106): one whole pipeline cycle from `Idle` to `Idle`. -/
def cycleTrace (p : List Byte) : List Instr :=
  frameTrace p ++ [.rxc, .fstart] ++ refreshTrace ++ [.ledc, .latchexp, .latch]

end Sys2Proof.Machine
end

