-- ==== Sys2Proof/Safety.lean ====
section
/-! DEFINITION. What a safe state is: the pipeline invariant of 10_state.md R41 with the facts about buffers and flags that carry it from step to step, and the shape of the output traces (42_frame_pipeline.md R186, 44_telemetry.md R261). -/

namespace Sys2Proof.Machine

/-- Every byte of `b` below `n` holds a value. -/
def writtenTo (m : Memory) (n : Nat) : Prop := ∀ i, i < n → (m.read i).isSome

/-- All spaces in canonical form and inside their sizes (20_memory.md R60; log 10). -/
structure MemoryOk (s : State) : Prop where
  rgb : s.bufRgb.wf ∧ s.bufRgb.within Config.frameBytes
  rx : s.bufRx.wf ∧ s.bufRx.within Config.frameBytes
  txled : s.bufTxled.wf ∧ s.bufTxled.within Config.ledBufBytes
  txt : s.bufTxt.wf ∧ s.bufTxt.within Config.teleBytes

/-- The model runs whole task runs as steps and takes its steps from the trace (40_arbitration.md R135; log 2, log 8). -/
structure TraceMode (s : State) : Prop where
  sectioned : s.sectioned = false
  stack : s.stack = []
  calls : s.calls = []

/-- The pipeline invariant of 10_state.md R41 in an unhalted state. R41 speaks of states reached "without a fault"; where an
error is flagged on `led`, the interrupt it raised is pending (41_dma_buffers.md R156; log 18). -/
structure PipelineOk (s : State) : Prop where
  idle : s.busy = false →
    s.pend.fstart = false ∧ s.ownerTxled = .cpu ∧ s.latchRunning = false ∧ s.pend.ledc = false ∧
      s.pend.latch = false
  oneHot : s.busy = true →
    (s.pend.fstart = true ∧ s.ownerTxled = .cpu ∧ s.latchRunning = false) ∨
    (s.pend.fstart = false ∧ s.ownerTxled = .dma ∧ s.latchRunning = false) ∨
    (s.pend.fstart = false ∧ s.ownerTxled = .cpu ∧ s.latchRunning = true)
  ledc : s.chLed.err = .none → (s.pend.ledc = true ↔ s.ownerTxled = .dma ∧ s.chLed.done = true)
  ledcErr : s.chLed.err ≠ .none → (s.pend.ledc = true ↔ s.ownerTxled = .dma)
  latch : s.pend.latch = true ↔ s.latchRunning = true ∧ s.latchExpired = true
  expired : s.latchExpired = true → s.latchRunning = true

/-- The transfers in an unhalted state: the receiver is always armed (70_reset_and_hazards.md R331, 41_dma_buffers.md
R157), a count is where its flags say, and a buffer in flight is written. -/
structure TransfersOk (s : State) : Prop where
  rxArmed : s.ownerRx = .dma
  rxDone : s.chRx.done = true ↔ s.chRx.cnt.toNat = Config.frameBytes
  rxPend : s.pend.rxc = true ↔ s.chRx.done = true ∨ s.chRx.err ≠ .none
  rxWritten : writtenTo s.bufRx s.chRx.cnt.toNat
  ledDone : s.ownerTxled = .dma → (s.chLed.done = true ↔ s.chLed.cnt.toNat = Config.ledBufBytes)
  rgbWritten : s.busy = true → writtenTo s.bufRgb Config.frameBytes
  ledFilled : s.ownerTxled = .dma → ∃ p,
    s.bufRgb.readRange 0 Config.frameBytes = some p ∧
    s.bufTxled.readRange 0 Config.ledBufBytes = some (enc p)
  telDone : s.ownerTxt = .dma → (s.chTel.done = true ↔ s.chTel.cnt.toNat = Config.teleBytes)
  telFilled : s.ownerTxt = .dma → ∃ x, s.bufTxt.readRange 0 Config.teleBytes = some (ser x)

/-- The invariant every step keeps. A halted state keeps what does not speak of a running pipeline, and its cause is one
of the four a run can reach (60_exceptions.md R291, R296). -/
structure Inv (s : State) : Prop where
  memory : MemoryOk s
  mode : TraceMode s
  counts : s.chRx.cnt.toNat ≤ Config.frameBytes ∧ s.chLed.cnt.toNat ≤ Config.ledBufBytes ∧
    s.chTel.cnt.toNat ≤ Config.teleBytes
  pipeline : s.halted = false → PipelineOk s
  transfers : s.halted = false → TransfersOk s
  priority : s.halted = false → s.curPrio = Config.prio .idle
  noCause : s.halted = false → s.cause = .none
  reachableCause : s.halted = true → s.cause ∈ [Cause.overrun, .framing, .dmaErr, .submitBusy]

/-! ## The output traces -/

/-- Reading `led_out` from the left: how many cells since the last `Latch`, none if the trace is no prefix of
`(Cell x 577, Latch)*` (42_frame_pipeline.md R186). -/
def ledPhase : Nat → List LedItem → Option Nat
  | n, [] => some n
  | n, .cell _ :: rest => if n < Config.ledBufBytes then ledPhase (n + 1) rest else none
  | n, .latch :: rest => if n = Config.ledBufBytes then ledPhase 0 rest else none

/-- Where an unhalted machine stands in its current refresh. -/
def refreshPosition (s : State) : Nat :=
  if s.ownerTxled = .dma then s.chLed.cnt.toNat
  else if s.latchRunning && !s.latchExpired then Config.ledBufBytes
  else 0

/-- The LED line: `led_out` is a prefix of `(Cell x 577, Latch)*` (42_frame_pipeline.md R186), the cells of the refresh
in flight are the first ones of the encoded frame (43_ws2812b_encoder.md R221), and outside a refresh, and before its
first cell, the line is low (R222). -/
structure LineOk (s : State) : Prop where
  shape : ∃ n, ledPhase 0 s.ledOut = some n
  here : s.halted = false → ledPhase 0 s.ledOut = some (refreshPosition s)
  current : s.halted = false → s.ownerTxled = .dma → ∃ p earlier,
    s.bufRgb.readRange 0 Config.frameBytes = some p ∧
    s.ledOut = earlier ++ ((enc p).take s.chLed.cnt.toNat).map .cell
  low : s.halted = false → s.ownerTxled = .cpu ∨ s.chLed.cnt.toNat = 0 ∨ s.chLed.cnt.toNat = Config.ledBufBytes →
    s.dutyReg = Config.dutyReset

/-- The serial line: `ser_tx` is whole frames `SER(s1), SER(s2), ..` and then the first `k` bytes of one, `k` the bytes
the report in flight has sent (44_telemetry.md R261). -/
def SerialOk (s : State) : Prop :=
  ∃ (xs : List Snapshot) (x : Snapshot) (k : Nat), k < Config.teleBytes ∧
    s.serTx = xs.flatMap ser ++ (ser x).take k ∧
    (s.halted = false → s.ownerTxt = .cpu → k = 0) ∧
    (s.halted = false → s.ownerTxt = .dma →
      s.chTel.cnt.toNat % Config.teleBytes = k ∧ s.bufTxt.readRange 0 Config.teleBytes = some (ser x))

/-! ## When operations are enabled -/

/-- The conditions of `dispatch(t)` (40_arbitration.md R133), task runs being whole steps (R135). -/
structure Dispatchable (t : Irq) (s : State) : Prop where
  running : s.halted = false
  pending : s.pend.get t = true
  unmasked : s.curPrio < Config.prio (.irq t)
  first : ∀ u, s.pend.get u = true → Config.prio (.irq u) ≤ Config.prio (.irq t)
  whole : s.sectioned = false

/-- The conditions of `dispatch(IDLE)` (40_arbitration.md R133), no task run being in progress. -/
structure IdleDispatchable (s : State) : Prop where
  running : s.halted = false
  nothingPending : s.pend = noPending
  noRun : s.stack = []

/-- The bytes an operation stores to, at most: `RXBYTE` the next byte of a transfer in flight (41_dma_buffers.md R153), a pixel
the next three; `RXC` the working array when idle (42_frame_pipeline.md R181), `FSTART` the LED buffer (R182), `TELE` the
report buffer (44_telemetry.md R251); every other operation but `RESET` stores to none. -/
def storedTo (i : Instr) (s : State) (b : Buf) (a : Nat) : Bool :=
  match i with
  | .rxbyte _ => b == .rx && s.inFlight .rx .rx && a == s.chRx.cnt.toNat
  | .fPixel _ _ _ => b == .rx && s.inFlight .rx .rx && decide (s.chRx.cnt.toNat ≤ a ∧ a < s.chRx.cnt.toNat + 3)
  | .rxc => b == .rgb && !s.busy && decide (a < Config.frameBytes)
  | .fstart => b == .txled && decide (a < Config.ledBufBytes)
  | .tele => b == .txt && decide (a < Config.teleBytes)
  | _ => false

/-- A block whose primitives are enabled in every unhalted state and raise nothing: `SUBMIT`, `PEND`, `WFI` and nested
sections of them (40_arbitration.md R132, R134, 41_dma_buffers.md R151, 44_telemetry.md R256). -/
def Block.unconditional : Block → Bool
  | .done => true
  | .access _ _ | .release _ _ _ | .halt _ _ => false
  | .atomic _ body rest => Block.unconditional body && Block.unconditional rest
  | .submit _ _ rest => Block.unconditional rest
  | .pend _ rest => Block.unconditional rest
  | .wfi _ rest => Block.unconditional rest

end Sys2Proof.Machine
end

