-- ==== Sys2Proof/Certificates/Slice0/Obligations.lean ====
section
/-! DEFINITION. Statements for the provers. Docstrings name the rule or section of spec/ each one formalises. -/

open Sys2Proof Sys2Proof.Machine

/-! ## Reset and the fetch -/

/-- 70_reset_and_hazards.md R330, 10_state.md R46 (92 D10): from any state, `RESET c0` writes the reset table; that the
model's `ret` and `stack` are cleared and the environment's own data stays is the model's choice (log 13). -/
def Obligations.ResetWritesTheResetTable : Prop :=
  ∀ (c0 : U32) (s : State),
    exec (.reset c0) s = .next
      { busy := false, contextSwitches := 0, frames := 0, sleepCycles := 0, cycleCounter := c0,
        bufRgb := [], bufRx := [], bufTxled := [], bufTxt := [],
        ownerRx := .dma, ownerTxled := .cpu, ownerTxt := .cpu,
        pend := { rxc := false, fstart := false, ledc := false, latch := false, tele := false },
        latchRunning := false, latchExpired := false,
        chRx := { cnt := 0, done := false, err := .none },
        chLed := { cnt := 0, done := false, err := .none },
        chTel := { cnt := 0, done := false, err := .none },
        dutyReg := 0, halted := false, cause := .none, curPrio := Config.prio .idle,
        ledOut := [], serTx := [], trace := s.trace, calls := s.calls, ret := .nothing,
        sectioned := s.sectioned, stack := [] }

/-- The state after reset meets the invariants the step keeps (10_state.md R41, R46). -/
def Obligations.ResetMeetsTheInvariants : Prop :=
  Inv State.reset ∧ LineOk State.reset ∧ SerialOk State.reset

/-- A step runs the operation decoded at the front of the trace, its bytes taken off (30_encoding.md R101, R105; log 1).
PRIM and FUNC operations never stand in a trace. -/
def Obligations.StepRunsTheDecodedTraceStep : Prop :=
  ∀ (s : State) (i : Instr) (rest : List Byte),
    s.calls = [] → decodeOp s.trace = .ok (i, rest) →
      ((i.mayStandInTrace = true ∨ i.cls = .reserved) → step s = exec i { s with trace := rest }) ∧
      ((i.cls = .prim ∨ i.cls = .func) → step s = .refused .notATraceStep)

/-- A step runs the item waiting at a port before the trace (log 2). -/
def Obligations.StepRunsTheWaitingCall : Prop :=
  ∀ (s : State) (c : Call) (cs : List Call) (i : Instr),
    s.calls = c :: cs → decodePort c.port c.bytes = .ok (i, []) →
      step s = exec i { s with calls := cs }

/-- Words written out from 30_encoding.md R101, R107 and 95_test_vectors.md P1 to P4 decode to their operations. -/
def Obligations.SpecWordsDecode : Prop :=
  decodeOp [0x00, 0x58, 0x02, 0x00, 0x00] = .ok (.idle 0x258, []) ∧
  decodeOp [0x10, 0x00, 0xFE, 0xFF, 0xFF] = .ok (.reset 0xFFFFFE00, []) ∧
  decodeOp [0x16, 0x64, 0x00, 0x00, 0x00, 0x15] = .ok (.cycadv 100, [0x15]) ∧
  decodeOp [0x17, 0x01, 0x03] = .ok (.xfererr .led .dmaErr, []) ∧
  decodeOp [0x11, 0xFF] = .ok (.rxbyte 0xFF, []) ∧
  decodeOp [0x05] = .ok (.latch, []) ∧
  decodePort .report [0xAA, 0x78, 0x56, 0x34, 0x12, 0xE8, 0x03, 0x00, 0x00, 0x02, 0x01, 0x07, 0x55] =
    .ok (.fTel { cycleCounter := 0x12345678, sleepCycles := 1000, contextSwitches := 0x0102, frames := 7 }, [])

/-- 30_encoding.md R102, R107: every byte with a bit of 7..5 set is no operation, `OVERRUN` and `FRAMING` are admitted
with channel 0 only, and `kind` 0 and `ch` above 2 are none. -/
def Obligations.IllegalOperationBytesAreRefused : Prop :=
  (∀ (id : Byte) (bs : List Byte), 0x20 ≤ id.toNat → decodeOp (id :: bs) = .error (.unknownId id)) ∧
  (∀ (ch kind : Byte) (bs : List Byte),
    (2 < ch.toNat ∨ kind.toNat = 0 ∨ 3 < kind.toNat ∨ (ch ≠ 0 ∧ kind.toNat < 3)) →
      ∃ e, decodeOp (0x17 :: ch :: kind :: bs) = .error e)

/-- 30_encoding.md R102: a reserved id "is not an operation"; its five ids decode by name and are refused. -/
def Obligations.ReservedIdsAreRefused : Prop :=
  ∀ s : State,
    exec .reserved06 s = .refused (.reservedOperation 0x06) ∧
    exec .reserved07 s = .refused (.reservedOperation 0x07) ∧
    exec .reserved0F s = .refused (.reservedOperation 0x0F) ∧
    exec .reserved1E s = .refused (.reservedOperation 0x1E) ∧
    exec .reserved1F s = .refused (.reservedOperation 0x1F)

/-- Decoding an encoded well-formed operation gives it back and leaves the bytes after it (30_encoding.md R101; the
operands of PRIM and FUNC in the model's own encoding, log 3). -/
def Obligations.DecodeOfEncodedOperation : Prop :=
  ∀ (i : Instr) (rest : List Byte), i.wf = true → i.cls ≠ .data →
    decodeOp (encode i ++ rest) = .ok (i, rest)

/-- Decoding an encoded data item on its own stream gives it back (30_encoding.md R91 to R97), and so does decoding a PRIM or
FUNC call at the call port, whose port and operand bytes are the model's (log 2, log 3, log 4). -/
def Obligations.DecodeOfEncodedItem : Prop :=
  ∀ (i : Instr) (p : Port), i.wf = true → i.port = some p → decodePort p (encode i) = .ok (i, [])

/-! ## The idle loop, the timers and the counters -/

/-- 44_telemetry.md R255: `IDLE d` runs whenever no task is pending; net effect on the two counters and nothing else.
With a task pending it is not enabled (40_arbitration.md R133). -/
def Obligations.IdleAddsTheWait : Prop :=
  (∀ (d : U32) (s : State), IdleDispatchable s →
    exec (.idle d) s = .next
      { s with cycleCounter := s.cycleCounter + d, sleepCycles := s.sleepCycles + d }) ∧
  (∀ (d : U32) (s : State) (t : Irq), s.halted = false → s.pend.get t = true →
    exec (.idle d) s = .refused .taskPending)

/-- 44_telemetry.md R256, R257 (92 D19): `CYCADV n` and `WFI d` advance the free-running counter and keep all other
state. -/
def Obligations.CyclesPassOnTheCounterAlone : Prop :=
  ∀ (n : U32) (s : State), s.halted = false →
    exec (.cycadv n) s = .next { s with cycleCounter := s.cycleCounter + n } ∧
    exec (.wfi n) s = .next { s with cycleCounter := s.cycleCounter + n }

/-- 44_telemetry.md R250 (92 D14, D29): `TELTICK` is enabled in every unhalted state and sets `pend[TELE]`; a tick while
it is set merges; halted, there is no such step. -/
def Obligations.TeltickPendsTele : Prop :=
  ∀ s : State,
    (s.halted = false → exec .teltick s = .next { s with pend := { s.pend with tele := true } }) ∧
    (s.halted = false → s.pend.tele = true → exec .teltick s = .next s) ∧
    (s.halted = true → exec .teltick s = .refused .machineHalted)

/-- 42_frame_pipeline.md R185 (92 D18, D28): the running timer expires once per start, pends `LATCH` and marks the
trace; halted, stopped or already signalled, there is no such step. -/
def Obligations.LatchexpSignalsOncePerStart : Prop :=
  (∀ s : State, s.halted = false → s.latchRunning = true → s.latchExpired = false →
    exec .latchexp s = .next
      { s with latchExpired := true, pend := { s.pend with latch := true },
               ledOut := s.ledOut ++ [.latch] }) ∧
  (∀ s : State, s.halted = false → (s.latchRunning = false ∨ s.latchExpired = true) →
    exec .latchexp s = .refused .timerNotArmed) ∧
  (∀ s : State, s.halted = true → exec .latchexp s = .refused .machineHalted)

/-! ## Arbitration -/

/-- 40_arbitration.md R134: `PEND(t)` sets `pend[t]` and nothing else; pending a task whose bit is 1 changes nothing. -/
def Obligations.PendSetsTheBit : Prop :=
  ∀ (t : Irq) (s : State), s.halted = false →
    ∃ s', exec (.pend t) s = .next s' ∧ s'.pend.get t = true ∧
      (∀ u, u ≠ t → s'.pend.get u = s.pend.get u) ∧ s' = { s with pend := s'.pend } ∧
      (s.pend.get t = true → s' = s)

/-- 40_arbitration.md R131, 10_state.md R47: `ACCESS(r)` gives a handle exactly where the running priority reaches the
ceiling, the highest priority of any accessor, and the accessors are those of R47. That the handle is kept in `ret` is the
model's choice (log 5). -/
def Obligations.AccessNeedsTheCeiling : Prop :=
  (∀ (r : Resource) (s : State), s.halted = false → ceiling r ≤ s.curPrio →
    exec (.access r) s = .next { s with ret := .handle r }) ∧
  (∀ (r : Resource) (s : State), s.halted = false → s.curPrio < ceiling r →
    exec (.access r) s = .refused (.belowCeiling r)) ∧
  (∀ (r : Resource) (t : Task), t ∈ accessors r → Config.prio t ≤ ceiling r) ∧
  (∀ r : Resource, ∃ t ∈ accessors r, Config.prio t = ceiling r) ∧
  accessors .busy = [.irq .rxc, .irq .latch] ∧
  accessors .contextSwitches = [.irq .rxc, .irq .fstart, .irq .ledc, .irq .latch, .irq .tele] ∧
  accessors .frames = [.irq .latch, .irq .tele] ∧
  accessors .sleepCycles = [.idle, .irq .tele] ∧
  accessors .rgb = [.irq .rxc, .irq .fstart] ∧
  accessors .rx = [.irq .rxc] ∧
  accessors .txled = [.irq .fstart, .irq .ledc] ∧
  accessors .txt = [.irq .tele] ∧
  accessors .latchTimer = [.irq .ledc, .irq .latch]

/-- 40_arbitration.md R132: a section runs its body at the ceiling, never below the running priority, and restores the
priority on exit; a fault raised in the body leaves it raised (60_exceptions.md R297). -/
def Obligations.AtomicRunsAtTheCeiling : Prop :=
  ∀ (r : Resource) (body : Block) (s s' : State), s.halted = false →
    runBlock body { s with curPrio := max s.curPrio (ceiling r) } = .next s' →
      exec (.atomic r body) s = .next (if s'.halted then s' else { s' with curPrio := s.curPrio })

/-- 40_arbitration.md R132: sections of `SUBMIT`, `PEND`, `WFI` and nested sections complete in every unhalted state,
raise nothing, restore the priority and leave no task run. -/
def Obligations.UnconditionalSectionsComplete : Prop :=
  ∀ (r : Resource) (body : Block) (s : State), s.halted = false →
    Block.unconditional body = true →
    ∃ s', exec (.atomic r body) s = .next s' ∧ s'.halted = false ∧ s'.cause = s.cause ∧
      s'.curPrio = s.curPrio ∧ s'.stack = s.stack ∧ (∀ b, s'.buf b = s.buf b)

/-- 40_arbitration.md R133 (92 D13, D15): a task run that answers a next state was dispatchable: unhalted, pending, above the
running priority, and no pending task above it. -/
def Obligations.TasksRunOnlyWhenDispatchable : Prop :=
  ∀ s s' : State, s.sectioned = false →
    (exec .rxc s = .next s' → Dispatchable .rxc s) ∧
    (exec .fstart s = .next s' → Dispatchable .fstart s) ∧
    (exec .ledc s = .next s' → Dispatchable .ledc s) ∧
    (exec .latch s = .next s' → Dispatchable .latch s) ∧
    (exec .tele s = .next s' → Dispatchable .tele s)

/-- 40_arbitration.md R135, R136: taken one section at a time with nothing between, a task run is the one atomic step. `RXC`
requests `FSTART` in its third section, so its fourth waits where `FSTART` outranks it (R137). The mode is the
model's (log 8). -/
def Obligations.SectionsOneByOneAreTheWholeRun : Prop :=
  ∀ s s' : State, s.stack = [] → s'.halted = false →
    (Dispatchable .fstart s → exec .fstart s = .next s' →
      runTrace (List.replicate 3 .fstart) { s with sectioned := true } = .next { s' with sectioned := true }) ∧
    (Dispatchable .ledc s → exec .ledc s = .next s' →
      runTrace (List.replicate 3 .ledc) { s with sectioned := true } = .next { s' with sectioned := true }) ∧
    (Dispatchable .latch s → exec .latch s = .next s' →
      runTrace (List.replicate 4 .latch) { s with sectioned := true } = .next { s' with sectioned := true }) ∧
    (Dispatchable .tele s → exec .tele s = .next s' →
      runTrace (List.replicate 9 .tele) { s with sectioned := true } = .next { s' with sectioned := true }) ∧
    (Dispatchable .rxc s → exec .rxc s = .next s' →
      runTrace (List.replicate 4 .rxc) { s with sectioned := true } =
        if s.busy = false ∧ Config.prio (.irq .rxc) < Config.prio (.irq .fstart)
        then .refused (.preempted .rxc) else .next { s' with sectioned := true })

/-! ## Buffers and beats -/

/-- 41_dma_buffers.md R151: `SUBMIT` takes a CPU-owned buffer and restarts its channel; on a DMA-owned one it answers `Busy`
and changes nothing. That the answer is kept in `ret` is the model's choice (log 5). -/
def Obligations.SubmitStartsATransfer : Prop :=
  ∀ (b : DmaBuf) (s : State), s.halted = false →
    (s.owner b = .cpu → ∃ s', exec (.submit b b.channel) s = .next s' ∧ s'.owner b = .dma ∧
      s'.chanCnt b.channel = 0 ∧ s'.chanDone b.channel = false ∧ s'.chanErr b.channel = .none ∧ s'.ret = .ok ∧
      s' = { (s.setOwner b .dma).restart b.channel with ret := .ok }) ∧
    (s.owner b = .dma → exec (.submit b b.channel) s = .next { s with ret := .errBusy })

/-- 41_dma_buffers.md R152 (92 D24): `RELEASE` returns ownership on completion and on error, an error first; of a CPU-owned
buffer or an unfinished transfer it is fatal, and every task run in progress is abandoned (the model's choice, log 11).
That the answer is kept in `ret` is the model's choice too (log 5). -/
def Obligations.ReleaseReturnsOwnership : Prop :=
  ∀ (b : DmaBuf) (s : State), s.halted = false →
    (s.owner b = .dma → s.chanErr b.channel = .none → s.chanDone b.channel = true →
      exec (.release b b.channel) s = .next { s.setOwner b .cpu with ret := .ok }) ∧
    (s.owner b = .dma → s.chanErr b.channel ≠ .none →
      exec (.release b b.channel) s =
        .next { s.setOwner b .cpu with ret := .errTransfer (s.chanErr b.channel) }) ∧
    ((s.owner b = .cpu ∨ (s.chanErr b.channel = .none ∧ s.chanDone b.channel = false)) →
      exec (.release b b.channel) s =
        .next { s with halted := true, cause := .releaseIncomplete, stack := [] })

/-- 41_dma_buffers.md R153 (92 D2, D11): a byte goes to `RX[rx.cnt]`, the last one of 72 completes the transfer and pends
`RXC`; a byte without a transfer flags `OVERRUN`; with an error flagged it is lost. -/
def Obligations.RxbyteStoresOrOverruns : Prop :=
  ∀ (v : Byte) (s : State), s.halted = false →
    (s.ownerRx = .dma → s.chRx.done = false → s.chRx.err = .none → s.chRx.cnt.toNat < 72 →
      exec (.rxbyte v) s = .next
        { s with bufRx := s.bufRx.writeRange s.chRx.cnt.toNat [v],
                 chRx := { cnt := s.chRx.cnt + 1, done := decide (s.chRx.cnt.toNat + 1 = 72), err := .none },
                 pend := { s.pend with rxc := s.pend.rxc || decide (s.chRx.cnt.toNat + 1 = 72) } }) ∧
    ((s.ownerRx = .cpu ∨ s.chRx.done = true) → s.chRx.err = .none →
      exec (.rxbyte v) s = .next
        { s with chRx := { s.chRx with err := .overrun }, pend := { s.pend with rxc := true } }) ∧
    (s.chRx.err ≠ .none → exec (.rxbyte v) s = .next s)

/-- 41_dma_buffers.md R154 (92 D2, D18): `LEDCELL` plays and emits `TXLED[led.cnt]`; the 577th cell completes the transfer and
pends `LEDC`; without a transfer in flight it is not enabled. -/
def Obligations.LedcellSendsTheNextCell : Prop :=
  ∀ s : State, s.halted = false →
    (∀ d, s.ownerTxled = .dma → s.chLed.done = false → s.chLed.err = .none → s.chLed.cnt.toNat < 577 →
      s.bufTxled.read s.chLed.cnt.toNat = some d →
      exec .ledcell s = .next
        { s with dutyReg := d, ledOut := s.ledOut ++ [.cell d],
                 chLed := { cnt := s.chLed.cnt + 1, done := decide (s.chLed.cnt.toNat + 1 = 577), err := .none },
                 pend := { s.pend with ledc := s.pend.ledc || decide (s.chLed.cnt.toNat + 1 = 577) } }) ∧
    ((s.ownerTxled = .cpu ∨ s.chLed.done = true ∨ s.chLed.err ≠ .none) →
      exec .ledcell s = .refused (.noTransfer .led))

/-- 41_dma_buffers.md R155, R161 (92 D2, D7): `TELBYTE` emits `TXT[tel.cnt]`; the 13th byte completes the transfer and pends
nothing; without a transfer in flight it is not enabled. -/
def Obligations.TelbyteSendsTheNextByte : Prop :=
  ∀ s : State, s.halted = false →
    (∀ v, s.ownerTxt = .dma → s.chTel.done = false → s.chTel.err = .none → s.chTel.cnt.toNat < 13 →
      s.bufTxt.read s.chTel.cnt.toNat = some v →
      exec .telbyte s = .next
        { s with serTx := s.serTx ++ [v],
                 chTel := { cnt := s.chTel.cnt + 1, done := decide (s.chTel.cnt.toNat + 1 = 13), err := .none } }) ∧
    ((s.ownerTxt = .cpu ∨ s.chTel.done = true ∨ s.chTel.err ≠ .none) →
      exec .telbyte s = .refused (.noTransfer .tel))

/-- 41_dma_buffers.md R156 (92 D12): `XFERERR` flags the error of a transfer in flight and raises the channel's interrupt,
none for `tel`; where no transfer is in flight, or with a kind that does not fit, it is not enabled. -/
def Obligations.XfererrFlagsTheTransfer : Prop :=
  ∀ (k : XferErr) (s : State), s.halted = false →
    (k ≠ .none → s.ownerRx = .dma → s.chRx.done = false → s.chRx.err = .none →
      exec (.xfererr .rx k) s = .next
        { s with chRx := { s.chRx with err := k }, pend := { s.pend with rxc := true } }) ∧
    (s.ownerTxled = .dma → s.chLed.done = false → s.chLed.err = .none →
      exec (.xfererr .led .dmaErr) s = .next
        { s with chLed := { s.chLed with err := .dmaErr }, pend := { s.pend with ledc := true } }) ∧
    (s.ownerTxt = .dma → s.chTel.done = false → s.chTel.err = .none →
      exec (.xfererr .tel .dmaErr) s = .next { s with chTel := { s.chTel with err := .dmaErr } }) ∧
    (∀ ch, s.inFlight (channelBuf ch) ch = false →
      exec (.xfererr ch .dmaErr) s = .refused (.noTransfer ch)) ∧
    (k ≠ .none → s.inFlight .rx .rx = false → exec (.xfererr .rx k) s = .refused (.noTransfer .rx)) ∧
    (∀ ch, ch ≠ .rx → k ≠ .dmaErr → exec (.xfererr ch k) s = .refused .kindNotOfChannel) ∧
    exec (.xfererr .rx .none) s = .refused .kindNotOfChannel

/-! ## The pipeline -/

/-- 42_frame_pipeline.md R181 (92 D6): an idle pipeline takes the frame: `RGB` is `RX`, `busy`, `pend[FSTART]`, the receiver armed
again, one context switch. -/
def Obligations.RxcAcceptsAFrame : Prop :=
  ∀ (s : State) (p : List Byte), Dispatchable .rxc s → s.busy = false →
    s.ownerRx = .dma → s.chRx.done = true → s.chRx.err = .none →
    s.bufRx.readRange 0 72 = some p →
    exec .rxc s = .next
      { s with contextSwitches := s.contextSwitches + 1,
               bufRgb := s.bufRgb.writeRange 0 p, busy := true,
               pend := { s.pend with rxc := false, fstart := true },
               ownerRx := .dma, chRx := { cnt := 0, done := false, err := .none } } ∧
    (s.bufRgb.writeRange 0 p).readRange 0 72 = some p

/-- 42_frame_pipeline.md R181, R187, R188 (92 D25): a busy pipeline drops the frame: the receiver is armed again and the run is
counted, and that is all. -/
def Obligations.RxcDropsAFrame : Prop :=
  ∀ s : State, Dispatchable .rxc s → s.busy = true →
    s.ownerRx = .dma → s.chRx.done = true → s.chRx.err = .none →
    exec .rxc s = .next
      { s with contextSwitches := s.contextSwitches + 1,
               pend := { s.pend with rxc := false },
               ownerRx := .dma, chRx := { cnt := 0, done := false, err := .none } }

/-- 60_exceptions.md R291 to R295, R297 (92 D7, D8, D11, D12): a transfer error halts the releasing task: the run is counted,
ownership is back, `cause` is the cause of the error's name, `cur_prio` stays the task's, nothing else of it has run. A `TELE`
dispatched while the previous report is leaving halts the same way with `SUBMIT_BUSY`. That no run begun below the halting
one goes on either is the model's choice (log 11). -/
def Obligations.FatalConditionsHaltTheRun : Prop :=
  (∀ (e : XferErr) (c : Cause),
    (e, c) ∈ [(XferErr.overrun, Cause.overrun), (.framing, .framing), (.dmaErr, .dmaErr)] →
    (∀ s : State, Dispatchable .rxc s → s.ownerRx = .dma → s.chRx.err = e →
      exec .rxc s = .next
        { s with pend := { s.pend with rxc := false }, contextSwitches := s.contextSwitches + 1,
                 ownerRx := .cpu, halted := true, cause := c,
                 curPrio := Config.prio (.irq .rxc), stack := [] }) ∧
    (∀ s : State, Dispatchable .ledc s → s.ownerTxled = .dma → s.chLed.err = e →
      exec .ledc s = .next
        { s with pend := { s.pend with ledc := false }, contextSwitches := s.contextSwitches + 1,
                 ownerTxled := .cpu, halted := true, cause := c,
                 curPrio := Config.prio (.irq .ledc), stack := [] }) ∧
    (∀ s : State, Dispatchable .tele s → s.ownerTxt = .dma → s.chTel.err = e →
      exec .tele s = .next
        { s with pend := { s.pend with tele := false },
                 ownerTxt := .cpu, halted := true, cause := c,
                 curPrio := Config.prio (.irq .tele), stack := [] })) ∧
  (∀ s : State, Dispatchable .tele s → s.ownerTxt = .dma → s.chTel.done = false → s.chTel.err = .none →
    exec .tele s = .next
      { s with pend := { s.pend with tele := false }, halted := true, cause := .submitBusy,
               curPrio := Config.prio (.irq .tele), stack := [] })

/-- 42_frame_pipeline.md R182: `FSTART` writes all 577 bytes of `ENC(RGB)` and submits the buffer. -/
def Obligations.FstartFillsAndSubmits : Prop :=
  ∀ (s : State) (p : List Byte), Dispatchable .fstart s → s.ownerTxled = .cpu →
    s.bufRgb.readRange 0 72 = some p →
    exec .fstart s = .next
      { s with contextSwitches := s.contextSwitches + 1,
               bufTxled := s.bufTxled.writeRange 0 (enc p),
               pend := { s.pend with fstart := false },
               ownerTxled := .dma, chLed := { cnt := 0, done := false, err := .none } } ∧
    (s.bufTxled.writeRange 0 (enc p)).readRange 0 577 = some (enc p)

/-- 42_frame_pipeline.md R183: `LEDC` releases the buffer and starts the latch timer from zero. -/
def Obligations.LedcStartsTheLatchTimer : Prop :=
  ∀ s : State, Dispatchable .ledc s → s.ownerTxled = .dma → s.chLed.done = true →
    s.chLed.err = .none →
    exec .ledc s = .next
      { s with contextSwitches := s.contextSwitches + 1, pend := { s.pend with ledc := false },
               ownerTxled := .cpu, latchRunning := true, latchExpired := false }

/-- 42_frame_pipeline.md R184: `LATCH` stops the timer, clears `busy` and counts the frame, wrapping. -/
def Obligations.LatchEndsTheCycle : Prop :=
  ∀ s : State, Dispatchable .latch s →
    exec .latch s = .next
      { s with contextSwitches := s.contextSwitches + 1, pend := { s.pend with latch := false },
               latchRunning := false, latchExpired := false, busy := false, frames := s.frames + 1 }

/-- 42_frame_pipeline.md R187, the frame-drop property: frames fed while busy, each with its `RXC` run, leave `RGB`, the LED
buffer, the frame-start request, the LED line and the pipeline state as they were. -/
def Obligations.FramesWhileBusyAreDropped : Prop :=
  ∀ (ps : List (List Byte)) (s : State), Inv s → s.halted = false → s.busy = true →
    s.pend.rxc = false → (∀ u, s.pend.get u = true → Config.prio (.irq u) ≤ Config.prio (.irq .rxc)) →
    s.chRx.cnt.toNat = 0 → (∀ p ∈ ps, p.length = 72) →
    ∃ s', runTrace (ps.flatMap fun p => frameTrace p ++ [.rxc]) s = .next s' ∧
      s'.busy = true ∧ s'.bufRgb = s.bufRgb ∧ s'.bufTxled = s.bufTxled ∧ s'.pend = s.pend ∧
      s'.ledOut = s.ledOut ∧ s'.dutyReg = s.dutyReg ∧ s'.chLed = s.chLed ∧ pstate s' = pstate s ∧
      s'.frames = s.frames ∧ s'.contextSwitches = s.contextSwitches + BitVec.ofNat 16 ps.length

/-! ## The encoder -/

/-- 43_ws2812b_encoder.md R211: `CELL(1) = DUTY_LONG`, `CELL(0) = DUTY_SHORT`, under `0 < DUTY_SHORT < DUTY_LONG`
(00_scope.md R9, 92 D3). That the value is kept in `ret` is the model's choice (log 5). -/
def Obligations.CellGivesTheDutyCode : Prop :=
  (∀ s : State, exec (.cell true) s = .next { s with ret := .duty Config.dutyLong } ∧
    exec (.cell false) s = .next { s with ret := .duty Config.dutyShort }) ∧
  0 < Config.dutyShort.toNat ∧ Config.dutyShort.toNat < Config.dutyLong.toNat

/-- 43_ws2812b_encoder.md R212: `ENC(p)` is total, has 577 cells, each data cell is the closed form's, and cell 576 is 0.
That the buffer is kept in `ret` is the model's choice (log 5). -/
def Obligations.EncIsTheClosedForm : Prop :=
  ∀ (p : List Byte) (s : State), p.length = 72 → ∃ e : List Byte,
    exec (.enc p) s = .next { s with ret := .ledBuffer e } ∧ e.length = 577 ∧
    (∀ i j : Nat, i < 24 → j < 8 →
      e.getD (24 * i + j) 0 = cell ((p.getD (3 * i + 1) 0).getLsbD (7 - j)) ∧
      e.getD (24 * i + 8 + j) 0 = cell ((p.getD (3 * i) 0).getLsbD (7 - j)) ∧
      e.getD (24 * i + 16 + j) 0 = cell ((p.getD (3 * i + 2) 0).getLsbD (7 - j))) ∧
    e.getD 576 1 = 0

/-- 43_ws2812b_encoder.md R213: the loop over LEDs, channels G, R, B and bits from 7 down is the same function. -/
def Obligations.EncLoopIsEnc : Prop :=
  ∀ p : List Byte, p.length = 72 → encLoop p = enc p

/-- 43_ws2812b_encoder.md R219: `DECLED` undoes `ENC`, so two frames never give the same refresh. -/
def Obligations.DecledUndoesEnc : Prop :=
  (∀ p : List Byte, p.length = 72 → decLed (enc p) = p) ∧
  (∀ p q : List Byte, p.length = 72 → q.length = 72 → enc p = enc q → p = q)

/-- 43_ws2812b_encoder.md R220: the `DUTY_LONG` cells of `ENC(p)` number the 1 bits of `p`, the `DUTY_SHORT` cells are the rest
of the 576. -/
def Obligations.EncCountsTheOneBits : Prop :=
  ∀ p : List Byte, p.length = 72 →
    (enc p).count Config.dutyLong = (p.map fun v => (msbBits v).count true).sum ∧
    (enc p).count Config.dutyShort + (enc p).count Config.dutyLong = 576 ∧
    (enc p).count 0 = 1

/-- 43_ws2812b_encoder.md R216, R217, R218: in a refresh the cell `LEDCELL` sends is the one the walker computes from `RGB`, and the
walker moves on as its table says. -/
def Obligations.LedcellIsTheWalker : Prop :=
  ∀ (s : State) (p : List Byte), Inv s → s.halted = false → s.ownerTxled = .dma →
    s.chLed.done = false → s.chLed.err = .none → s.bufRgb.readRange 0 72 = some p →
    ∃ (s' : State) (d : Byte), exec .ledcell s = .next s' ∧ walkerSends p (walkerState s) = some d ∧
      s'.dutyReg = d ∧ s'.ledOut = s.ledOut ++ [.cell d] ∧ walkerState s' = walkerNext (walkerState s) ∧
      s'.bufRgb = s.bufRgb

/-- 43_ws2812b_encoder.md R221, 41_dma_buffers.md R154: a refresh sends exactly the bytes of the buffer, in order, then the transfer is complete and
`LEDC` pends. -/
def Obligations.RefreshSendsTheBuffer : Prop :=
  ∀ (s : State) (e : List Byte), s.halted = false → s.ownerTxled = .dma →
    s.chLed = { cnt := 0, done := false, err := .none } → s.bufTxled.readRange 0 577 = some e →
    runTrace refreshTrace s = .next
      { s with dutyReg := e.getD 576 0, ledOut := s.ledOut ++ e.map .cell,
               chLed := { cnt := 577, done := true, err := .none },
               pend := { s.pend with ledc := true } }

/-- 42_frame_pipeline.md R189, R186, 30_encoding.md R106: one whole cycle takes the pipeline from `Idle` to `Idle`, adds 4 context switches and 1
frame, and puts `ENC(p)` and one `Latch` on the LED line. -/
def Obligations.OneCycleRefreshesTheFrame : Prop :=
  ∀ (s : State) (p : List Byte), Inv s → s.halted = false → s.busy = false →
    s.pend = noPending → s.chRx.cnt.toNat = 0 → p.length = 72 →
    ∃ s', runTrace (cycleTrace p) s = .next s' ∧ s'.halted = false ∧ pstate s = some .idle ∧
      pstate s' = some .idle ∧ s'.contextSwitches = s.contextSwitches + 4 ∧ s'.frames = s.frames + 1 ∧
      s'.ledOut = s.ledOut ++ (enc p).map .cell ++ [.latch] ∧ s'.dutyReg = 0 ∧
      s'.bufRgb.readRange 0 72 = some p ∧ s'.serTx = s.serTx ∧ s'.pend = noPending ∧ s'.chRx.cnt.toNat = 0

/-! ## Telemetry -/

/-- 30_encoding.md R103: little-endian assembly and its inverse. -/
def Obligations.LittleEndianRoundTrip : Prop :=
  (∀ v : U16, ∃ b0 b1, le16 v = [b0, b1] ∧ v.toNat = b0.toNat + 256 * b1.toNat ∧ ofLe16 b0 b1 = v) ∧
  (∀ v : U32, ∃ b0 b1 b2 b3, le32 v = [b0, b1, b2, b3] ∧
    v.toNat = b0.toNat + 256 * b1.toNat + 65536 * b2.toNat + 16777216 * b3.toNat ∧
    ofLe32 b0 b1 b2 b3 = v)

/-- 44_telemetry.md R252, 30_encoding.md R97: `SER` puts the 13 bytes in the wire order, little-endian. That
the report is kept in `ret` is the model's choice (log 5). -/
def Obligations.SerIsTheWireFormat : Prop :=
  ∀ (x : Snapshot) (s : State), ∃ t : List Byte,
    exec (.ser x) s = .next { s with ret := .report t } ∧ t.length = 13 ∧
    t = [0xAA] ++ le32 x.cycleCounter ++ le32 x.sleepCycles ++ le16 x.contextSwitches ++ [x.frames] ++ [0x55]

/-- 44_telemetry.md R253, R254: `DES(SER(s)[1 .. 12)) = s` for every snapshot, and `SER(DES(q)) = AA q 55` for every
payload. That the snapshot is kept in `ret` is the model's choice (log 5). -/
def Obligations.SerDesRoundTrip : Prop :=
  (∀ (x : Snapshot) (s : State),
    exec (.des (((ser x).drop 1).take 11)) s = .next { s with ret := .snapshot x }) ∧
  (∀ (q : List Byte) (s : State), q.length = 11 → ∃ x,
    exec (.des q) s = .next { s with ret := .snapshot x } ∧ ser x = [0xAA] ++ q ++ [0x55])

/-- 44_telemetry.md R251 (92 D7): `TELE` reports the counters and the running counter, submits the report and clears the three
counters. -/
def Obligations.TeleReportsAndClears : Prop :=
  ∀ s : State, Dispatchable .tele s →
    (s.ownerTxt = .cpu ∨ (s.chTel.done = true ∧ s.chTel.err = .none)) →
    exec .tele s = .next
      { s with
        pend := { s.pend with tele := false },
        bufTxt := s.bufTxt.writeRange 0
          (ser { contextSwitches := s.contextSwitches, frames := s.frames,
                 sleepCycles := s.sleepCycles, cycleCounter := s.cycleCounter }),
        ownerTxt := .dma, chTel := { cnt := 0, done := false, err := .none },
        contextSwitches := 0, frames := 0, sleepCycles := 0 }

/-- 44_telemetry.md R262 (92 D16): `DEC` as a function of the stream: fewer than 13 bytes wait, a frame yields its snapshot and 13 bytes go,
anything else drops one byte; and the call returns it (kept in `ret`, the model's choice, log 5). -/
def Obligations.DecFollowsItsLoop : Prop :=
  (∀ (z : List Byte) (s : State), exec (.dec z) s = .next { s with ret := .decoded (dec z).1 (dec z).2 }) ∧
  (∀ z : List Byte, z.length < 13 → dec z = ([], 0)) ∧
  (∀ (x : Snapshot) (z : List Byte), dec (ser x ++ z) = (x :: (dec z).1, (dec z).2 + 13)) ∧
  (∀ (c : Byte) (z : List Byte), 12 ≤ z.length → (c ≠ 0xAA ∨ z.getD 11 0 ≠ 0x55) →
    dec (c :: z) = ((dec z).1, (dec z).2 + 1))

/-- 44_telemetry.md R262 (b), R261: a clean stream decodes to exactly its snapshots. -/
def Obligations.CleanStreamDecodes : Prop :=
  ∀ xs : List Snapshot, dec (xs.flatMap ser) = (xs, 13 * xs.length)

/-- 44_telemetry.md R263 (92 D22): the utilisation is `100 (1 - sleep / D)` with `D` the wrapping difference; where `D = 0` there
is no such step (00_scope.md R14, 93 U8). The exact fraction kept in `ret` is the model's form (log 5, log 12). -/
def Obligations.UtilIsTheFormula : Prop :=
  ∀ (a b : Snapshot) (s : State),
    (b.cycleCounter = a.cycleCounter → exec (.util a b) s = .refused .noCounterAdvance) ∧
    (b.cycleCounter ≠ a.cycleCounter → ∃ f : Fraction,
      exec (.util a b) s = .next { s with ret := .utilisation f } ∧ f.den ≠ 0 ∧
      (f.num : ℚ) / (f.den : ℚ) =
        100 * (1 - (b.sleepCycles.toNat : ℚ) / ((b.cycleCounter - a.cycleCounter).toNat : ℚ)))

/-! ## Data items -/

/-- A pixel on the serial input is its three bytes in the order R, G, B (30_encoding.md R91; its execution as beats is the
model's, log 4). -/
def Obligations.PixelArrivesAsThreeBytes : Prop :=
  ∀ (r g b : Byte) (s : State), s.halted = false → (s.inFlight .rx .rx = true → s.chRx.cnt.toNat < 72) →
    ∃ s', exec (.fPixel r g b) s = .next s' ∧
      runTrace [.rxbyte r, .rxbyte g, .rxbyte b] s = .next s' ∧
      (s.inFlight .rx .rx = true → s.chRx.cnt.toNat + 3 ≤ 72 →
        s'.bufRx.readRange s.chRx.cnt.toNat 3 = some [r, g, b] ∧ s'.chRx.cnt.toNat = s.chRx.cnt.toNat + 3)

/-- A cell on the LED line is the `LEDCELL` beat that sends it (30_encoding.md R92, R96; log 4). -/
def Obligations.CellItemsAreLedcellBeats : Prop :=
  ∀ (s : State) (d : Byte), s.halted = false → s.inFlight .txled .led = true → s.chLed.cnt.toNat < 577 →
    s.bufTxled.read s.chLed.cnt.toNat = some d →
    (∃ s', exec .ledcell s = .next s' ∧ s'.dutyReg = d ∧ s'.ledOut = s.ledOut ++ [.cell d] ∧
      (d = Config.dutyShort → exec .fCell0 s = .next s') ∧
      (d = Config.dutyLong → exec .fCell1 s = .next s') ∧
      (d = Config.dutyReset → exec .fCellRst s = .next s')) ∧
    (d ≠ Config.dutyShort → exec .fCell0 s = .refused .streamDiffers) ∧
    (d ≠ Config.dutyLong → exec .fCell1 s = .refused .streamDiffers) ∧
    (d ≠ Config.dutyReset → exec .fCellRst s = .refused .streamDiffers)

/-- The 24 cells of one LED on the line are 24 beats (30_encoding.md R93; log 4). -/
def Obligations.LedGroupIsTwentyFourBeats : Prop :=
  ∀ (g r b : Byte) (s : State), s.halted = false → s.inFlight .txled .led = true →
    s.chLed.cnt.toNat % 24 = 0 → s.chLed.cnt.toNat < 576 →
    s.bufTxled.readRange s.chLed.cnt.toNat 24 = some (groupCells g r b) →
    exec (.fLedGroup g r b) s = .next
      { s with dutyReg := cell (b.getLsbD 0),
               ledOut := s.ledOut ++ (groupCells g r b).map .cell,
               chLed := { s.chLed with cnt := s.chLed.cnt + 24 } }

/-- A report on the serial output is its 13 bytes, one beat each (30_encoding.md R97, 41_dma_buffers.md R155; log 4). -/
def Obligations.ReportIsThirteenBeats : Prop :=
  ∀ (x : Snapshot) (s : State), s.halted = false → s.ownerTxt = .dma →
    s.chTel = { cnt := 0, done := false, err := .none } → s.bufTxt.readRange 0 13 = some (ser x) →
    exec (.fTel x) s = .next
      { s with serTx := s.serTx ++ ser x, chTel := { cnt := 13, done := true, err := .none } } ∧
    runTrace reportTrace s = exec (.fTel x) s

/-! ## Faults and the halted state -/

/-- 60_exceptions.md R297 (92 D8): `HALT(c)` sets `halted` and `cause`, keeps what was written and `cur_prio`, and abandons the running
task. That the runs suspended under it are abandoned too (`stack := []`) is the model's choice (log 11). -/
def Obligations.HaltRaisesFatal : Prop :=
  ∀ (c : Cause) (s : State), s.halted = false → c ≠ .none →
    exec (.halt c) s = .next { s with halted := true, cause := c, stack := [] }

/-- 60_exceptions.md R298 (92 D8, D31): while halted, no operation of a trace but `RESET` is enabled, and `RESET` is. -/
def Obligations.HaltedOnlyResetRuns : Prop :=
  ∀ s : State, s.halted = true →
    (∀ c0, ∃ s', exec (.reset c0) s = .next s' ∧ s'.halted = false) ∧
    (∀ i : Instr, i.mayStandInTrace = true → (∀ c0, i ≠ .reset c0) → exec i s = .refused .machineHalted)

/-! ## Whole-machine rules -/

/-- 20_memory.md R67, 10_state.md R26, R28: in every operation but `RESET`, a byte of the four spaces that the operation
does not store to (`storedTo`) reads after a next state as it read before. -/
def Obligations.StoresKeepEveryOtherByte : Prop :=
  ∀ (i : Instr) (s s' : State), (∀ c0, i ≠ .reset c0) → exec i s = .next s' →
    ∀ (b : Buf) (a : Nat), storedTo i s b a = false → (s'.buf b).read a = (s.buf b).read a

/-- 10_state.md R21, R25, R26, R24, R23: which operations of a trace write `busy`, `RGB`, `cycle_counter`, `sleep_cycles`, `frames`. -/
def Obligations.OnlyTheNamedOperationsWrite : Prop :=
  ∀ (i : Instr) (s s' : State), i.mayStandInTrace = true → (∀ c0, i ≠ .reset c0) →
    s.sectioned = false → exec i s = .next s' →
    (s'.busy = true → s.busy = true ∨ i = .rxc) ∧
    (s.busy = true → s'.busy = true ∨ i = .latch) ∧
    (s'.bufRgb = s.bufRgb ∨ (i = .rxc ∧ s.busy = false)) ∧
    (s'.bufTxled = s.bufTxled ∨ i = .fstart) ∧
    (s'.bufTxt = s.bufTxt ∨ i = .tele) ∧
    (s'.bufRx = s.bufRx ∨ ∃ b, i = .rxbyte b) ∧
    (s'.cycleCounter = s.cycleCounter ∨ (∃ n, i = .cycadv n) ∨ ∃ d, i = .idle d) ∧
    (s'.sleepCycles = s.sleepCycles ∨ i = .tele ∨ ∃ d, i = .idle d) ∧
    (s'.frames = s.frames ∨ i = .latch ∨ i = .tele) ∧
    (s'.contextSwitches = s.contextSwitches ∨ i = .rxc ∨ i = .fstart ∨ i = .ledc ∨ i = .latch ∨
      i = .tele)

/-- No operation touches the environment's own data: the rest of the trace, the waiting calls, the granularity (log 1,
log 2, log 8, log 13). -/
def Obligations.OperationsKeepTheEnvironment : Prop :=
  ∀ (i : Instr) (s s' : State), exec i s = .next s' →
    s'.trace = s.trace ∧ s'.calls = s.calls ∧ s'.sectioned = s.sectioned

/-- 10_state.md R41, 60_exceptions.md R291, R296: every step keeps the invariant, so the pipeline stays one-hot, every pending bit means what it says,
and a halt is one of the four reachable causes. R41's line on `pend[LEDC]`, stated there for states reached without a fault, is
the line for states with no error flagged on `led`; with one it is DEDUCED (log 18). That the state is one of whole task runs
with no call waiting is the model's choice (log 2, log 8). -/
def Obligations.StepKeepsTheInvariant : Prop :=
  ∀ s s' : State, Inv s → step s = .next s' → Inv s'

/-- 42_frame_pipeline.md R186, 43_ws2812b_encoder.md R221, R222, 44_telemetry.md R261: every step keeps the shape of the LED
line, and keeps the serial output a stream of whole frames and a prefix of the one in flight. -/
def Obligations.StepKeepsTheOutputLines : Prop :=
  (∀ s s' : State, Inv s → LineOk s → step s = .next s' → LineOk s') ∧
  (∀ s s' : State, Inv s → SerialOk s → step s = .next s' → SerialOk s')

/-- 10_state.md R26, R29, 20_memory.md R60, 60_exceptions.md R296: from a state that meets the invariant no step reads a byte without a value or an index
outside a buffer. -/
def Obligations.NoStepFaults : Prop :=
  ∀ (s : State) (f : Fault), Inv s → step s ≠ .fault f

/-- 42_frame_pipeline.md R180, 10_state.md R30: the pipeline moves only along its cycle: from a state that meets the invariant, a trace step other than
`RESET` that does not halt keeps `pstate` or takes it to its one successor, by the one task of the table. -/
def Obligations.PipelineMovesAlongItsCycle : Prop :=
  ∀ (i : Instr) (s s' : State), Inv s → s.halted = false → i.mayStandInTrace = true →
    (∀ c0, i ≠ .reset c0) → exec i s = .next s' → s'.halted = false →
    (i = .fstart ∧ pstate s = some .encoding ∧ pstate s' = some .transmitting) ∨
    (i = .ledc ∧ pstate s = some .transmitting ∧ pstate s' = some .latching) ∨
    (i = .latch ∧ pstate s = some .latching ∧ pstate s' = some .idle) ∨
    (i = .rxc ∧ pstate s = some .idle ∧ pstate s' = some .encoding) ∨
    (pstate s' = pstate s ∧ i ≠ .fstart ∧ i ≠ .ledc ∧ i ≠ .latch ∧ (i = .rxc → s.busy = true))
end

