-- ==== Sys2Proof/Laws/Memory.lean ====
section
/-! SUPPORT. What the memory operations do: reads after writes, the canonical form kept, ranges byte by byte. -/

namespace Sys2Proof.Laws

open Sys2Proof Sys2Proof.Machine

@[simp] theorem read_nil (i : Nat) : Memory.read [] i = none := rfl

theorem read_append (m n : Memory) (j : Nat) :
    Memory.read (m ++ n) j = ((Memory.read m j).or (Memory.read n j)) := by
  induction m with
  | nil => rfl
  | cons c m ih =>
    simp only [List.cons_append, Memory.read]
    split <;> simp [ih]

theorem read_filter_true (m : Memory) (q : Nat → Bool) (j : Nat) (h : q j = true) :
    Memory.read (m.filter fun c => q c.1) j = Memory.read m j := by
  induction m with
  | nil => rfl
  | cons c m ih =>
    by_cases hc : q c.1 = true
    · simp [hc, Memory.read, ih]
    · have : c.1 ≠ j := fun e => hc (e ▸ h)
      simp [hc, Memory.read, ih, this]

theorem read_filter_false (m : Memory) (q : Nat → Bool) (j : Nat) (h : q j = false) :
    Memory.read (m.filter fun c => q c.1) j = none := by
  induction m with
  | nil => rfl
  | cons c m ih =>
    by_cases hc : q c.1 = true
    · have : c.1 ≠ j := fun e => by simp [e, h] at hc
      simp [hc, Memory.read, ih, this]
    · simp [hc, ih]

theorem read_cellsFrom (vs : List Byte) (i j : Nat) :
    Memory.read (cellsFrom i vs) j = if i ≤ j then vs[j - i]? else none := by
  induction vs generalizing i with
  | nil => simp [cellsFrom]
  | cons v vs ih =>
    simp only [cellsFrom, Memory.read, ih]
    by_cases h : i = j
    · simp [h]
    · simp only [h, if_false]
      by_cases h2 : i ≤ j
      · have e : j - i = (j - (i + 1)) + 1 := by omega
        have h3 : i + 1 ≤ j := by omega
        simp [h2, h3, e]
      · have h3 : ¬ i + 1 ≤ j := by omega
        simp [h2, h3]

/-- A read after a write: the byte written inside the range, the old byte outside it. -/
theorem read_writeRange (m : Memory) (i : Nat) (vs : List Byte) (j : Nat) :
    (m.writeRange i vs).read j =
      if i ≤ j ∧ j < i + vs.length then vs[j - i]? else m.read j := by
  unfold Memory.writeRange
  rw [read_append, read_append, read_cellsFrom]
  by_cases h1 : j < i
  · rw [read_filter_true m (fun k => decide (k < i)) j (by simp [h1]),
      read_filter_false m (fun k => decide (i + vs.length ≤ k)) j (by simp; omega)]
    have : ¬ i ≤ j := by omega
    simp [this]
  · rw [read_filter_false m (fun k => decide (k < i)) j (by simp; omega)]
    by_cases h2 : j < i + vs.length
    · rw [read_filter_false m (fun k => decide (i + vs.length ≤ k)) j (by simp; omega)]
      have : i ≤ j := by omega
      simp [this, h2]
    · rw [read_filter_true m (fun k => decide (i + vs.length ≤ k)) j (by simp; omega)]
      have h3 : i ≤ j := by omega
      have h4 : vs.length ≤ j - i := by omega
      simp [h3, h2, List.getElem?_eq_none h4]

/-- A byte outside the range written is unchanged. -/
theorem read_writeRange_outside (m : Memory) (i : Nat) (vs : List Byte) (j : Nat)
    (h : j < i ∨ i + vs.length ≤ j) : (m.writeRange i vs).read j = m.read j := by
  rw [read_writeRange, if_neg (by omega)]

/-- A byte just written is read back. -/
theorem read_writeRange_inside (m : Memory) (i : Nat) (vs : List Byte) (k : Nat) (h : k < vs.length) :
    (m.writeRange i vs).read (i + k) = some vs[k] := by
  rw [read_writeRange, if_pos (by omega)]
  simp [h]

theorem mem_cellsFrom (vs : List Byte) (i : Nat) (c : Host.Cell) (h : c ∈ cellsFrom i vs) :
    i ≤ c.1 ∧ c.1 < i + vs.length := by
  induction vs generalizing i with
  | nil => simp [cellsFrom] at h
  | cons v vs ih =>
    simp only [cellsFrom, List.mem_cons] at h
    rcases h with rfl | h
    · simp
    · have := ih (i + 1) h
      simp only [List.length_cons]
      omega

theorem cellsFrom_wf (vs : List Byte) (i : Nat) : (cellsFrom i vs).wf := by
  induction vs generalizing i with
  | nil => simp [cellsFrom]
  | cons v vs ih =>
    refine List.pairwise_cons.2 ⟨fun c hc => ?_, ih (i + 1)⟩
    have := mem_cellsFrom vs (i + 1) c hc
    simp only
    omega

/-- Every write keeps the canonical form. -/
theorem writeRange_wf (m : Memory) (i : Nat) (vs : List Byte) (h : m.wf) : (m.writeRange i vs).wf := by
  unfold Memory.writeRange
  refine List.pairwise_append.2 ⟨List.pairwise_append.2 ⟨h.filter _, cellsFrom_wf vs i, ?_⟩, h.filter _, ?_⟩
  · intro a ha b hb
    have hb := mem_cellsFrom vs i b hb
    have ha := (List.mem_filter.1 ha).2
    simp only [decide_eq_true_eq] at ha
    omega
  · intro a ha b hb
    have hb := (List.mem_filter.1 hb).2
    simp only [decide_eq_true_eq] at hb
    rcases List.mem_append.1 ha with ha | ha
    · have ha := (List.mem_filter.1 ha).2
      simp only [decide_eq_true_eq] at ha
      omega
    · have ha := mem_cellsFrom vs i a ha
      omega

/-- A write inside a space of size `n` keeps the space inside its size. -/
theorem writeRange_within (m : Memory) (i : Nat) (vs : List Byte) (n : Nat) (h : m.within n)
    (hn : i + vs.length ≤ n) : (m.writeRange i vs).within n := by
  intro c hc
  unfold Memory.writeRange at hc
  rcases List.mem_append.1 hc with hc | hc
  · rcases List.mem_append.1 hc with hc | hc
    · exact h c (List.mem_filter.1 hc).1
    · have := mem_cellsFrom vs i c hc
      omega
  · exact h c (List.mem_filter.1 hc).1

/-- A range reads as `vs` exactly if `vs` has its length and every byte reads as the one of `vs`. -/
theorem readRange_eq_some (m : Memory) (i n : Nat) (vs : List Byte) :
    m.readRange i n = some vs ↔ vs.length = n ∧ ∀ k, k < n → m.read (i + k) = vs[k]? := by
  induction n generalizing i vs with
  | zero =>
    simp only [Memory.readRange, Option.some.injEq, Nat.not_lt_zero, false_implies, implies_true, and_true]
    exact ⟨fun h => by simp [← h], fun h => (List.length_eq_zero_iff.1 h).symm⟩
  | succ n ih =>
    simp only [Memory.readRange]
    constructor
    · intro h
      split at h
      · rename_i v ws hv hws
        obtain ⟨hl, hr⟩ := (ih (i + 1) ws).1 hws
        cases h
        refine ⟨by simp [hl], fun k hk => ?_⟩
        cases k with
        | zero => simpa using hv
        | succ k =>
          have := hr k (by omega)
          rw [show i + (k + 1) = i + 1 + k by omega]
          simpa using this
      · cases h
    · rintro ⟨hl, hr⟩
      match vs, hl with
      | v :: ws, hl =>
        have h0 : m.read i = some v := by simpa using hr 0 (by omega)
        have h1 : m.readRange (i + 1) n = some ws := by
          refine (ih (i + 1) ws).2 ⟨by simpa using hl, fun k hk => ?_⟩
          have := hr (k + 1) (by omega)
          rw [show i + 1 + k = i + (k + 1) by omega]
          simpa using this
        simp [h0, h1]

/-- What was written reads back as a range. -/
theorem readRange_writeRange (m : Memory) (i : Nat) (vs : List Byte) :
    (m.writeRange i vs).readRange i vs.length = some vs := by
  refine (readRange_eq_some _ _ _ _).2 ⟨rfl, fun k hk => ?_⟩
  rw [read_writeRange_inside m i vs k hk]
  simp [hk]

theorem readRange_writeRange_of_length (m : Memory) (i n : Nat) (vs : List Byte) (h : vs.length = n) :
    (m.writeRange i vs).readRange i n = some vs := h ▸ readRange_writeRange m i vs

/-- The bytes a range reads number as many as it is long. -/
theorem readRange_length {m : Memory} {i n : Nat} {vs : List Byte} (h : m.readRange i n = some vs) :
    vs.length = n := ((readRange_eq_some m i n vs).1 h).1

theorem read_of_readRange {m : Memory} {n : Nat} {vs : List Byte} (h : m.readRange 0 n = some vs) {k : Nat}
    (hk : k < n) : m.read k = some (vs[k]'(by rw [readRange_length h]; exact hk)) := by
  have := ((readRange_eq_some m 0 n vs).1 h).2 k hk
  simpa [readRange_length h, hk] using this

/-- A range all of whose bytes hold a value reads as some list. -/
theorem readRange_isSome {m : Memory} {i n : Nat} (h : ∀ k, k < n → (m.read (i + k)).isSome) :
    ∃ vs, m.readRange i n = some vs := by
  induction n generalizing i with
  | zero => exact ⟨[], rfl⟩
  | succ n ih =>
    obtain ⟨vs, hvs⟩ := ih (i := i + 1) (fun k hk => by
      have := h (k + 1) (by omega)
      rwa [show i + 1 + k = i + (k + 1) by omega])
    obtain ⟨v, hv⟩ := Option.isSome_iff_exists.1 (by simpa using h 0 (by omega))
    exact ⟨v :: vs, by simp [Memory.readRange, hv, hvs]⟩

/-- A range that reads gives its first byte and the range after it. -/
theorem readRange_cons {m : Memory} {i n : Nat} {v : Byte} {vs : List Byte}
    (h : m.readRange i (n + 1) = some (v :: vs)) : m.read i = some v ∧ m.readRange (i + 1) n = some vs := by
  simp only [Memory.readRange] at h
  split at h
  · simp only [Option.some.injEq, List.cons.injEq] at h
    obtain ⟨rfl, rfl⟩ := h
    constructor <;> assumption
  · simp at h

/-- Writing a byte and then the bytes after it is one write. -/
theorem writeRange_cons (m : Memory) (i : Nat) (v : Byte) (vs : List Byte) :
    (m.writeRange i [v]).writeRange (i + 1) vs = m.writeRange i (v :: vs) := by
  have below : ∀ l : Memory, ((l.filter fun c => decide (i + 1 ≤ c.1)).filter fun c => decide (c.1 < i + 1)) = [] :=
    fun l => by
      rw [List.filter_filter, List.filter_eq_nil_iff]
      intro c _
      simp
  have above : ∀ l : Memory,
      ((l.filter fun c => decide (c.1 < i)).filter fun c => decide (i + 1 + vs.length ≤ c.1)) = [] :=
    fun l => by
      rw [List.filter_filter, List.filter_eq_nil_iff]
      intro c _
      simp; omega
  have keep : ∀ l : Memory,
      ((l.filter fun c => decide (c.1 < i)).filter fun c => decide (c.1 < i + 1)) =
        l.filter fun c => decide (c.1 < i) :=
    fun l => by
      rw [List.filter_filter]
      refine List.filter_congr fun c _ => ?_
      rw [← Bool.decide_and, decide_eq_decide]; omega
  have rest : ∀ l : Memory,
      ((l.filter fun c => decide (i + 1 ≤ c.1)).filter fun c => decide (i + 1 + vs.length ≤ c.1)) =
        l.filter fun c => decide (i + (vs.length + 1) ≤ c.1) :=
    fun l => by
      rw [List.filter_filter]
      refine List.filter_congr fun c _ => ?_
      rw [← Bool.decide_and, decide_eq_decide]; omega
  simp only [Memory.writeRange, List.filter_append, List.length_cons, List.length_nil, Nat.zero_add, below, above,
    keep, rest, cellsFrom]
  simp
  omega

end Sys2Proof.Laws
end

