-- ==== Sys2Proof/Laws/State.lean ====
section
/-! SUPPORT. One lemma per field per update of State, so that no proof unfolds a record update. -/

namespace Sys2Proof.Laws

open Sys2Proof Sys2Proof.Machine

variable (s : State)

@[simp] theorem countSwitch_busy : s.countSwitch.busy = s.busy := rfl
@[simp] theorem countSwitch_contextSwitches : s.countSwitch.contextSwitches = s.contextSwitches + 1 := rfl
@[simp] theorem countSwitch_frames : s.countSwitch.frames = s.frames := rfl
@[simp] theorem countSwitch_sleepCycles : s.countSwitch.sleepCycles = s.sleepCycles := rfl
@[simp] theorem countSwitch_cycleCounter : s.countSwitch.cycleCounter = s.cycleCounter := rfl
@[simp] theorem countSwitch_bufRgb : s.countSwitch.bufRgb = s.bufRgb := rfl
@[simp] theorem countSwitch_bufRx : s.countSwitch.bufRx = s.bufRx := rfl
@[simp] theorem countSwitch_bufTxled : s.countSwitch.bufTxled = s.bufTxled := rfl
@[simp] theorem countSwitch_bufTxt : s.countSwitch.bufTxt = s.bufTxt := rfl
@[simp] theorem countSwitch_ownerRx : s.countSwitch.ownerRx = s.ownerRx := rfl
@[simp] theorem countSwitch_ownerTxled : s.countSwitch.ownerTxled = s.ownerTxled := rfl
@[simp] theorem countSwitch_ownerTxt : s.countSwitch.ownerTxt = s.ownerTxt := rfl
@[simp] theorem countSwitch_pend : s.countSwitch.pend = s.pend := rfl
@[simp] theorem countSwitch_latchRunning : s.countSwitch.latchRunning = s.latchRunning := rfl
@[simp] theorem countSwitch_latchExpired : s.countSwitch.latchExpired = s.latchExpired := rfl
@[simp] theorem countSwitch_chRx : s.countSwitch.chRx = s.chRx := rfl
@[simp] theorem countSwitch_chLed : s.countSwitch.chLed = s.chLed := rfl
@[simp] theorem countSwitch_chTel : s.countSwitch.chTel = s.chTel := rfl
@[simp] theorem countSwitch_dutyReg : s.countSwitch.dutyReg = s.dutyReg := rfl
@[simp] theorem countSwitch_halted : s.countSwitch.halted = s.halted := rfl
@[simp] theorem countSwitch_cause : s.countSwitch.cause = s.cause := rfl
@[simp] theorem countSwitch_curPrio : s.countSwitch.curPrio = s.curPrio := rfl
@[simp] theorem countSwitch_ledOut : s.countSwitch.ledOut = s.ledOut := rfl
@[simp] theorem countSwitch_serTx : s.countSwitch.serTx = s.serTx := rfl
@[simp] theorem countSwitch_trace : s.countSwitch.trace = s.trace := rfl
@[simp] theorem countSwitch_calls : s.countSwitch.calls = s.calls := rfl
@[simp] theorem countSwitch_ret : s.countSwitch.ret = s.ret := rfl
@[simp] theorem countSwitch_sectioned : s.countSwitch.sectioned = s.sectioned := rfl
@[simp] theorem countSwitch_stack : s.countSwitch.stack = s.stack := rfl

@[simp] theorem countFrame_busy : s.countFrame.busy = s.busy := rfl
@[simp] theorem countFrame_contextSwitches : s.countFrame.contextSwitches = s.contextSwitches := rfl
@[simp] theorem countFrame_frames : s.countFrame.frames = s.frames + 1 := rfl
@[simp] theorem countFrame_sleepCycles : s.countFrame.sleepCycles = s.sleepCycles := rfl
@[simp] theorem countFrame_cycleCounter : s.countFrame.cycleCounter = s.cycleCounter := rfl
@[simp] theorem countFrame_bufRgb : s.countFrame.bufRgb = s.bufRgb := rfl
@[simp] theorem countFrame_bufRx : s.countFrame.bufRx = s.bufRx := rfl
@[simp] theorem countFrame_bufTxled : s.countFrame.bufTxled = s.bufTxled := rfl
@[simp] theorem countFrame_bufTxt : s.countFrame.bufTxt = s.bufTxt := rfl
@[simp] theorem countFrame_ownerRx : s.countFrame.ownerRx = s.ownerRx := rfl
@[simp] theorem countFrame_ownerTxled : s.countFrame.ownerTxled = s.ownerTxled := rfl
@[simp] theorem countFrame_ownerTxt : s.countFrame.ownerTxt = s.ownerTxt := rfl
@[simp] theorem countFrame_pend : s.countFrame.pend = s.pend := rfl
@[simp] theorem countFrame_latchRunning : s.countFrame.latchRunning = s.latchRunning := rfl
@[simp] theorem countFrame_latchExpired : s.countFrame.latchExpired = s.latchExpired := rfl
@[simp] theorem countFrame_chRx : s.countFrame.chRx = s.chRx := rfl
@[simp] theorem countFrame_chLed : s.countFrame.chLed = s.chLed := rfl
@[simp] theorem countFrame_chTel : s.countFrame.chTel = s.chTel := rfl
@[simp] theorem countFrame_dutyReg : s.countFrame.dutyReg = s.dutyReg := rfl
@[simp] theorem countFrame_halted : s.countFrame.halted = s.halted := rfl
@[simp] theorem countFrame_cause : s.countFrame.cause = s.cause := rfl
@[simp] theorem countFrame_curPrio : s.countFrame.curPrio = s.curPrio := rfl
@[simp] theorem countFrame_ledOut : s.countFrame.ledOut = s.ledOut := rfl
@[simp] theorem countFrame_serTx : s.countFrame.serTx = s.serTx := rfl
@[simp] theorem countFrame_trace : s.countFrame.trace = s.trace := rfl
@[simp] theorem countFrame_calls : s.countFrame.calls = s.calls := rfl
@[simp] theorem countFrame_ret : s.countFrame.ret = s.ret := rfl
@[simp] theorem countFrame_sectioned : s.countFrame.sectioned = s.sectioned := rfl
@[simp] theorem countFrame_stack : s.countFrame.stack = s.stack := rfl

@[simp] theorem addSleep_busy (d : U32) : (s.addSleep d).busy = s.busy := rfl
@[simp] theorem addSleep_contextSwitches (d : U32) : (s.addSleep d).contextSwitches = s.contextSwitches := rfl
@[simp] theorem addSleep_frames (d : U32) : (s.addSleep d).frames = s.frames := rfl
@[simp] theorem addSleep_sleepCycles (d : U32) : (s.addSleep d).sleepCycles = s.sleepCycles + d := rfl
@[simp] theorem addSleep_cycleCounter (d : U32) : (s.addSleep d).cycleCounter = s.cycleCounter := rfl
@[simp] theorem addSleep_bufRgb (d : U32) : (s.addSleep d).bufRgb = s.bufRgb := rfl
@[simp] theorem addSleep_bufRx (d : U32) : (s.addSleep d).bufRx = s.bufRx := rfl
@[simp] theorem addSleep_bufTxled (d : U32) : (s.addSleep d).bufTxled = s.bufTxled := rfl
@[simp] theorem addSleep_bufTxt (d : U32) : (s.addSleep d).bufTxt = s.bufTxt := rfl
@[simp] theorem addSleep_ownerRx (d : U32) : (s.addSleep d).ownerRx = s.ownerRx := rfl
@[simp] theorem addSleep_ownerTxled (d : U32) : (s.addSleep d).ownerTxled = s.ownerTxled := rfl
@[simp] theorem addSleep_ownerTxt (d : U32) : (s.addSleep d).ownerTxt = s.ownerTxt := rfl
@[simp] theorem addSleep_pend (d : U32) : (s.addSleep d).pend = s.pend := rfl
@[simp] theorem addSleep_latchRunning (d : U32) : (s.addSleep d).latchRunning = s.latchRunning := rfl
@[simp] theorem addSleep_latchExpired (d : U32) : (s.addSleep d).latchExpired = s.latchExpired := rfl
@[simp] theorem addSleep_chRx (d : U32) : (s.addSleep d).chRx = s.chRx := rfl
@[simp] theorem addSleep_chLed (d : U32) : (s.addSleep d).chLed = s.chLed := rfl
@[simp] theorem addSleep_chTel (d : U32) : (s.addSleep d).chTel = s.chTel := rfl
@[simp] theorem addSleep_dutyReg (d : U32) : (s.addSleep d).dutyReg = s.dutyReg := rfl
@[simp] theorem addSleep_halted (d : U32) : (s.addSleep d).halted = s.halted := rfl
@[simp] theorem addSleep_cause (d : U32) : (s.addSleep d).cause = s.cause := rfl
@[simp] theorem addSleep_curPrio (d : U32) : (s.addSleep d).curPrio = s.curPrio := rfl
@[simp] theorem addSleep_ledOut (d : U32) : (s.addSleep d).ledOut = s.ledOut := rfl
@[simp] theorem addSleep_serTx (d : U32) : (s.addSleep d).serTx = s.serTx := rfl
@[simp] theorem addSleep_trace (d : U32) : (s.addSleep d).trace = s.trace := rfl
@[simp] theorem addSleep_calls (d : U32) : (s.addSleep d).calls = s.calls := rfl
@[simp] theorem addSleep_ret (d : U32) : (s.addSleep d).ret = s.ret := rfl
@[simp] theorem addSleep_sectioned (d : U32) : (s.addSleep d).sectioned = s.sectioned := rfl
@[simp] theorem addSleep_stack (d : U32) : (s.addSleep d).stack = s.stack := rfl

@[simp] theorem passCycles_busy (n : U32) : (s.passCycles n).busy = s.busy := rfl
@[simp] theorem passCycles_contextSwitches (n : U32) : (s.passCycles n).contextSwitches = s.contextSwitches := rfl
@[simp] theorem passCycles_frames (n : U32) : (s.passCycles n).frames = s.frames := rfl
@[simp] theorem passCycles_sleepCycles (n : U32) : (s.passCycles n).sleepCycles = s.sleepCycles := rfl
@[simp] theorem passCycles_cycleCounter (n : U32) : (s.passCycles n).cycleCounter = s.cycleCounter + n := rfl
@[simp] theorem passCycles_bufRgb (n : U32) : (s.passCycles n).bufRgb = s.bufRgb := rfl
@[simp] theorem passCycles_bufRx (n : U32) : (s.passCycles n).bufRx = s.bufRx := rfl
@[simp] theorem passCycles_bufTxled (n : U32) : (s.passCycles n).bufTxled = s.bufTxled := rfl
@[simp] theorem passCycles_bufTxt (n : U32) : (s.passCycles n).bufTxt = s.bufTxt := rfl
@[simp] theorem passCycles_ownerRx (n : U32) : (s.passCycles n).ownerRx = s.ownerRx := rfl
@[simp] theorem passCycles_ownerTxled (n : U32) : (s.passCycles n).ownerTxled = s.ownerTxled := rfl
@[simp] theorem passCycles_ownerTxt (n : U32) : (s.passCycles n).ownerTxt = s.ownerTxt := rfl
@[simp] theorem passCycles_pend (n : U32) : (s.passCycles n).pend = s.pend := rfl
@[simp] theorem passCycles_latchRunning (n : U32) : (s.passCycles n).latchRunning = s.latchRunning := rfl
@[simp] theorem passCycles_latchExpired (n : U32) : (s.passCycles n).latchExpired = s.latchExpired := rfl
@[simp] theorem passCycles_chRx (n : U32) : (s.passCycles n).chRx = s.chRx := rfl
@[simp] theorem passCycles_chLed (n : U32) : (s.passCycles n).chLed = s.chLed := rfl
@[simp] theorem passCycles_chTel (n : U32) : (s.passCycles n).chTel = s.chTel := rfl
@[simp] theorem passCycles_dutyReg (n : U32) : (s.passCycles n).dutyReg = s.dutyReg := rfl
@[simp] theorem passCycles_halted (n : U32) : (s.passCycles n).halted = s.halted := rfl
@[simp] theorem passCycles_cause (n : U32) : (s.passCycles n).cause = s.cause := rfl
@[simp] theorem passCycles_curPrio (n : U32) : (s.passCycles n).curPrio = s.curPrio := rfl
@[simp] theorem passCycles_ledOut (n : U32) : (s.passCycles n).ledOut = s.ledOut := rfl
@[simp] theorem passCycles_serTx (n : U32) : (s.passCycles n).serTx = s.serTx := rfl
@[simp] theorem passCycles_trace (n : U32) : (s.passCycles n).trace = s.trace := rfl
@[simp] theorem passCycles_calls (n : U32) : (s.passCycles n).calls = s.calls := rfl
@[simp] theorem passCycles_ret (n : U32) : (s.passCycles n).ret = s.ret := rfl
@[simp] theorem passCycles_sectioned (n : U32) : (s.passCycles n).sectioned = s.sectioned := rfl
@[simp] theorem passCycles_stack (n : U32) : (s.passCycles n).stack = s.stack := rfl

@[simp] theorem startLatchTimer_busy : s.startLatchTimer.busy = s.busy := rfl
@[simp] theorem startLatchTimer_contextSwitches : s.startLatchTimer.contextSwitches = s.contextSwitches := rfl
@[simp] theorem startLatchTimer_frames : s.startLatchTimer.frames = s.frames := rfl
@[simp] theorem startLatchTimer_sleepCycles : s.startLatchTimer.sleepCycles = s.sleepCycles := rfl
@[simp] theorem startLatchTimer_cycleCounter : s.startLatchTimer.cycleCounter = s.cycleCounter := rfl
@[simp] theorem startLatchTimer_bufRgb : s.startLatchTimer.bufRgb = s.bufRgb := rfl
@[simp] theorem startLatchTimer_bufRx : s.startLatchTimer.bufRx = s.bufRx := rfl
@[simp] theorem startLatchTimer_bufTxled : s.startLatchTimer.bufTxled = s.bufTxled := rfl
@[simp] theorem startLatchTimer_bufTxt : s.startLatchTimer.bufTxt = s.bufTxt := rfl
@[simp] theorem startLatchTimer_ownerRx : s.startLatchTimer.ownerRx = s.ownerRx := rfl
@[simp] theorem startLatchTimer_ownerTxled : s.startLatchTimer.ownerTxled = s.ownerTxled := rfl
@[simp] theorem startLatchTimer_ownerTxt : s.startLatchTimer.ownerTxt = s.ownerTxt := rfl
@[simp] theorem startLatchTimer_pend : s.startLatchTimer.pend = s.pend := rfl
@[simp] theorem startLatchTimer_latchRunning : s.startLatchTimer.latchRunning = true := rfl
@[simp] theorem startLatchTimer_latchExpired : s.startLatchTimer.latchExpired = false := rfl
@[simp] theorem startLatchTimer_chRx : s.startLatchTimer.chRx = s.chRx := rfl
@[simp] theorem startLatchTimer_chLed : s.startLatchTimer.chLed = s.chLed := rfl
@[simp] theorem startLatchTimer_chTel : s.startLatchTimer.chTel = s.chTel := rfl
@[simp] theorem startLatchTimer_dutyReg : s.startLatchTimer.dutyReg = s.dutyReg := rfl
@[simp] theorem startLatchTimer_halted : s.startLatchTimer.halted = s.halted := rfl
@[simp] theorem startLatchTimer_cause : s.startLatchTimer.cause = s.cause := rfl
@[simp] theorem startLatchTimer_curPrio : s.startLatchTimer.curPrio = s.curPrio := rfl
@[simp] theorem startLatchTimer_ledOut : s.startLatchTimer.ledOut = s.ledOut := rfl
@[simp] theorem startLatchTimer_serTx : s.startLatchTimer.serTx = s.serTx := rfl
@[simp] theorem startLatchTimer_trace : s.startLatchTimer.trace = s.trace := rfl
@[simp] theorem startLatchTimer_calls : s.startLatchTimer.calls = s.calls := rfl
@[simp] theorem startLatchTimer_ret : s.startLatchTimer.ret = s.ret := rfl
@[simp] theorem startLatchTimer_sectioned : s.startLatchTimer.sectioned = s.sectioned := rfl
@[simp] theorem startLatchTimer_stack : s.startLatchTimer.stack = s.stack := rfl

@[simp] theorem stopLatchTimer_busy : s.stopLatchTimer.busy = s.busy := rfl
@[simp] theorem stopLatchTimer_contextSwitches : s.stopLatchTimer.contextSwitches = s.contextSwitches := rfl
@[simp] theorem stopLatchTimer_frames : s.stopLatchTimer.frames = s.frames := rfl
@[simp] theorem stopLatchTimer_sleepCycles : s.stopLatchTimer.sleepCycles = s.sleepCycles := rfl
@[simp] theorem stopLatchTimer_cycleCounter : s.stopLatchTimer.cycleCounter = s.cycleCounter := rfl
@[simp] theorem stopLatchTimer_bufRgb : s.stopLatchTimer.bufRgb = s.bufRgb := rfl
@[simp] theorem stopLatchTimer_bufRx : s.stopLatchTimer.bufRx = s.bufRx := rfl
@[simp] theorem stopLatchTimer_bufTxled : s.stopLatchTimer.bufTxled = s.bufTxled := rfl
@[simp] theorem stopLatchTimer_bufTxt : s.stopLatchTimer.bufTxt = s.bufTxt := rfl
@[simp] theorem stopLatchTimer_ownerRx : s.stopLatchTimer.ownerRx = s.ownerRx := rfl
@[simp] theorem stopLatchTimer_ownerTxled : s.stopLatchTimer.ownerTxled = s.ownerTxled := rfl
@[simp] theorem stopLatchTimer_ownerTxt : s.stopLatchTimer.ownerTxt = s.ownerTxt := rfl
@[simp] theorem stopLatchTimer_pend : s.stopLatchTimer.pend = s.pend := rfl
@[simp] theorem stopLatchTimer_latchRunning : s.stopLatchTimer.latchRunning = false := rfl
@[simp] theorem stopLatchTimer_latchExpired : s.stopLatchTimer.latchExpired = false := rfl
@[simp] theorem stopLatchTimer_chRx : s.stopLatchTimer.chRx = s.chRx := rfl
@[simp] theorem stopLatchTimer_chLed : s.stopLatchTimer.chLed = s.chLed := rfl
@[simp] theorem stopLatchTimer_chTel : s.stopLatchTimer.chTel = s.chTel := rfl
@[simp] theorem stopLatchTimer_dutyReg : s.stopLatchTimer.dutyReg = s.dutyReg := rfl
@[simp] theorem stopLatchTimer_halted : s.stopLatchTimer.halted = s.halted := rfl
@[simp] theorem stopLatchTimer_cause : s.stopLatchTimer.cause = s.cause := rfl
@[simp] theorem stopLatchTimer_curPrio : s.stopLatchTimer.curPrio = s.curPrio := rfl
@[simp] theorem stopLatchTimer_ledOut : s.stopLatchTimer.ledOut = s.ledOut := rfl
@[simp] theorem stopLatchTimer_serTx : s.stopLatchTimer.serTx = s.serTx := rfl
@[simp] theorem stopLatchTimer_trace : s.stopLatchTimer.trace = s.trace := rfl
@[simp] theorem stopLatchTimer_calls : s.stopLatchTimer.calls = s.calls := rfl
@[simp] theorem stopLatchTimer_ret : s.stopLatchTimer.ret = s.ret := rfl
@[simp] theorem stopLatchTimer_sectioned : s.stopLatchTimer.sectioned = s.sectioned := rfl
@[simp] theorem stopLatchTimer_stack : s.stopLatchTimer.stack = s.stack := rfl

@[simp] theorem request_busy (t : Irq) : (s.request t).busy = s.busy := rfl
@[simp] theorem request_contextSwitches (t : Irq) : (s.request t).contextSwitches = s.contextSwitches := rfl
@[simp] theorem request_frames (t : Irq) : (s.request t).frames = s.frames := rfl
@[simp] theorem request_sleepCycles (t : Irq) : (s.request t).sleepCycles = s.sleepCycles := rfl
@[simp] theorem request_cycleCounter (t : Irq) : (s.request t).cycleCounter = s.cycleCounter := rfl
@[simp] theorem request_bufRgb (t : Irq) : (s.request t).bufRgb = s.bufRgb := rfl
@[simp] theorem request_bufRx (t : Irq) : (s.request t).bufRx = s.bufRx := rfl
@[simp] theorem request_bufTxled (t : Irq) : (s.request t).bufTxled = s.bufTxled := rfl
@[simp] theorem request_bufTxt (t : Irq) : (s.request t).bufTxt = s.bufTxt := rfl
@[simp] theorem request_ownerRx (t : Irq) : (s.request t).ownerRx = s.ownerRx := rfl
@[simp] theorem request_ownerTxled (t : Irq) : (s.request t).ownerTxled = s.ownerTxled := rfl
@[simp] theorem request_ownerTxt (t : Irq) : (s.request t).ownerTxt = s.ownerTxt := rfl
@[simp] theorem request_pend (t : Irq) : (s.request t).pend = s.pend.set t true := rfl
@[simp] theorem request_latchRunning (t : Irq) : (s.request t).latchRunning = s.latchRunning := rfl
@[simp] theorem request_latchExpired (t : Irq) : (s.request t).latchExpired = s.latchExpired := rfl
@[simp] theorem request_chRx (t : Irq) : (s.request t).chRx = s.chRx := rfl
@[simp] theorem request_chLed (t : Irq) : (s.request t).chLed = s.chLed := rfl
@[simp] theorem request_chTel (t : Irq) : (s.request t).chTel = s.chTel := rfl
@[simp] theorem request_dutyReg (t : Irq) : (s.request t).dutyReg = s.dutyReg := rfl
@[simp] theorem request_halted (t : Irq) : (s.request t).halted = s.halted := rfl
@[simp] theorem request_cause (t : Irq) : (s.request t).cause = s.cause := rfl
@[simp] theorem request_curPrio (t : Irq) : (s.request t).curPrio = s.curPrio := rfl
@[simp] theorem request_ledOut (t : Irq) : (s.request t).ledOut = s.ledOut := rfl
@[simp] theorem request_serTx (t : Irq) : (s.request t).serTx = s.serTx := rfl
@[simp] theorem request_trace (t : Irq) : (s.request t).trace = s.trace := rfl
@[simp] theorem request_calls (t : Irq) : (s.request t).calls = s.calls := rfl
@[simp] theorem request_ret (t : Irq) : (s.request t).ret = s.ret := rfl
@[simp] theorem request_sectioned (t : Irq) : (s.request t).sectioned = s.sectioned := rfl
@[simp] theorem request_stack (t : Irq) : (s.request t).stack = s.stack := rfl

@[simp] theorem returning_busy (v : Value) : (s.returning v).busy = s.busy := rfl
@[simp] theorem returning_contextSwitches (v : Value) : (s.returning v).contextSwitches = s.contextSwitches := rfl
@[simp] theorem returning_frames (v : Value) : (s.returning v).frames = s.frames := rfl
@[simp] theorem returning_sleepCycles (v : Value) : (s.returning v).sleepCycles = s.sleepCycles := rfl
@[simp] theorem returning_cycleCounter (v : Value) : (s.returning v).cycleCounter = s.cycleCounter := rfl
@[simp] theorem returning_bufRgb (v : Value) : (s.returning v).bufRgb = s.bufRgb := rfl
@[simp] theorem returning_bufRx (v : Value) : (s.returning v).bufRx = s.bufRx := rfl
@[simp] theorem returning_bufTxled (v : Value) : (s.returning v).bufTxled = s.bufTxled := rfl
@[simp] theorem returning_bufTxt (v : Value) : (s.returning v).bufTxt = s.bufTxt := rfl
@[simp] theorem returning_ownerRx (v : Value) : (s.returning v).ownerRx = s.ownerRx := rfl
@[simp] theorem returning_ownerTxled (v : Value) : (s.returning v).ownerTxled = s.ownerTxled := rfl
@[simp] theorem returning_ownerTxt (v : Value) : (s.returning v).ownerTxt = s.ownerTxt := rfl
@[simp] theorem returning_pend (v : Value) : (s.returning v).pend = s.pend := rfl
@[simp] theorem returning_latchRunning (v : Value) : (s.returning v).latchRunning = s.latchRunning := rfl
@[simp] theorem returning_latchExpired (v : Value) : (s.returning v).latchExpired = s.latchExpired := rfl
@[simp] theorem returning_chRx (v : Value) : (s.returning v).chRx = s.chRx := rfl
@[simp] theorem returning_chLed (v : Value) : (s.returning v).chLed = s.chLed := rfl
@[simp] theorem returning_chTel (v : Value) : (s.returning v).chTel = s.chTel := rfl
@[simp] theorem returning_dutyReg (v : Value) : (s.returning v).dutyReg = s.dutyReg := rfl
@[simp] theorem returning_halted (v : Value) : (s.returning v).halted = s.halted := rfl
@[simp] theorem returning_cause (v : Value) : (s.returning v).cause = s.cause := rfl
@[simp] theorem returning_curPrio (v : Value) : (s.returning v).curPrio = s.curPrio := rfl
@[simp] theorem returning_ledOut (v : Value) : (s.returning v).ledOut = s.ledOut := rfl
@[simp] theorem returning_serTx (v : Value) : (s.returning v).serTx = s.serTx := rfl
@[simp] theorem returning_trace (v : Value) : (s.returning v).trace = s.trace := rfl
@[simp] theorem returning_calls (v : Value) : (s.returning v).calls = s.calls := rfl
@[simp] theorem returning_ret (v : Value) : (s.returning v).ret = v := rfl
@[simp] theorem returning_sectioned (v : Value) : (s.returning v).sectioned = s.sectioned := rfl
@[simp] theorem returning_stack (v : Value) : (s.returning v).stack = s.stack := rfl

@[simp] theorem enterTask_busy (t : Irq) : (enterTask t s).busy = s.busy := rfl
@[simp] theorem enterTask_contextSwitches (t : Irq) : (enterTask t s).contextSwitches = s.contextSwitches := rfl
@[simp] theorem enterTask_frames (t : Irq) : (enterTask t s).frames = s.frames := rfl
@[simp] theorem enterTask_sleepCycles (t : Irq) : (enterTask t s).sleepCycles = s.sleepCycles := rfl
@[simp] theorem enterTask_cycleCounter (t : Irq) : (enterTask t s).cycleCounter = s.cycleCounter := rfl
@[simp] theorem enterTask_bufRgb (t : Irq) : (enterTask t s).bufRgb = s.bufRgb := rfl
@[simp] theorem enterTask_bufRx (t : Irq) : (enterTask t s).bufRx = s.bufRx := rfl
@[simp] theorem enterTask_bufTxled (t : Irq) : (enterTask t s).bufTxled = s.bufTxled := rfl
@[simp] theorem enterTask_bufTxt (t : Irq) : (enterTask t s).bufTxt = s.bufTxt := rfl
@[simp] theorem enterTask_ownerRx (t : Irq) : (enterTask t s).ownerRx = s.ownerRx := rfl
@[simp] theorem enterTask_ownerTxled (t : Irq) : (enterTask t s).ownerTxled = s.ownerTxled := rfl
@[simp] theorem enterTask_ownerTxt (t : Irq) : (enterTask t s).ownerTxt = s.ownerTxt := rfl
@[simp] theorem enterTask_pend (t : Irq) : (enterTask t s).pend = s.pend.set t false := rfl
@[simp] theorem enterTask_latchRunning (t : Irq) : (enterTask t s).latchRunning = s.latchRunning := rfl
@[simp] theorem enterTask_latchExpired (t : Irq) : (enterTask t s).latchExpired = s.latchExpired := rfl
@[simp] theorem enterTask_chRx (t : Irq) : (enterTask t s).chRx = s.chRx := rfl
@[simp] theorem enterTask_chLed (t : Irq) : (enterTask t s).chLed = s.chLed := rfl
@[simp] theorem enterTask_chTel (t : Irq) : (enterTask t s).chTel = s.chTel := rfl
@[simp] theorem enterTask_dutyReg (t : Irq) : (enterTask t s).dutyReg = s.dutyReg := rfl
@[simp] theorem enterTask_halted (t : Irq) : (enterTask t s).halted = s.halted := rfl
@[simp] theorem enterTask_cause (t : Irq) : (enterTask t s).cause = s.cause := rfl
@[simp] theorem enterTask_curPrio (t : Irq) : (enterTask t s).curPrio = Config.prio (.irq t) := rfl
@[simp] theorem enterTask_ledOut (t : Irq) : (enterTask t s).ledOut = s.ledOut := rfl
@[simp] theorem enterTask_serTx (t : Irq) : (enterTask t s).serTx = s.serTx := rfl
@[simp] theorem enterTask_trace (t : Irq) : (enterTask t s).trace = s.trace := rfl
@[simp] theorem enterTask_calls (t : Irq) : (enterTask t s).calls = s.calls := rfl
@[simp] theorem enterTask_ret (t : Irq) : (enterTask t s).ret = s.ret := rfl
@[simp] theorem enterTask_sectioned (t : Irq) : (enterTask t s).sectioned = s.sectioned := rfl
@[simp] theorem enterTask_stack (t : Irq) : (enterTask t s).stack = ({ task := t, next := 0, saved := s.curPrio, snap := zeroSnapshot } : Activation) :: s.stack := rfl

@[simp] theorem sendByte_busy (v : Byte) : (sendByte v s).busy = s.busy := rfl
@[simp] theorem sendByte_contextSwitches (v : Byte) : (sendByte v s).contextSwitches = s.contextSwitches := rfl
@[simp] theorem sendByte_frames (v : Byte) : (sendByte v s).frames = s.frames := rfl
@[simp] theorem sendByte_sleepCycles (v : Byte) : (sendByte v s).sleepCycles = s.sleepCycles := rfl
@[simp] theorem sendByte_cycleCounter (v : Byte) : (sendByte v s).cycleCounter = s.cycleCounter := rfl
@[simp] theorem sendByte_bufRgb (v : Byte) : (sendByte v s).bufRgb = s.bufRgb := rfl
@[simp] theorem sendByte_bufRx (v : Byte) : (sendByte v s).bufRx = s.bufRx := rfl
@[simp] theorem sendByte_bufTxled (v : Byte) : (sendByte v s).bufTxled = s.bufTxled := rfl
@[simp] theorem sendByte_bufTxt (v : Byte) : (sendByte v s).bufTxt = s.bufTxt := rfl
@[simp] theorem sendByte_ownerRx (v : Byte) : (sendByte v s).ownerRx = s.ownerRx := rfl
@[simp] theorem sendByte_ownerTxled (v : Byte) : (sendByte v s).ownerTxled = s.ownerTxled := rfl
@[simp] theorem sendByte_ownerTxt (v : Byte) : (sendByte v s).ownerTxt = s.ownerTxt := rfl
@[simp] theorem sendByte_pend (v : Byte) : (sendByte v s).pend = s.pend := rfl
@[simp] theorem sendByte_latchRunning (v : Byte) : (sendByte v s).latchRunning = s.latchRunning := rfl
@[simp] theorem sendByte_latchExpired (v : Byte) : (sendByte v s).latchExpired = s.latchExpired := rfl
@[simp] theorem sendByte_chRx (v : Byte) : (sendByte v s).chRx = s.chRx := rfl
@[simp] theorem sendByte_chLed (v : Byte) : (sendByte v s).chLed = s.chLed := rfl
@[simp] theorem sendByte_chTel (v : Byte) : (sendByte v s).chTel = s.chTel.advance Config.teleBytes := rfl
@[simp] theorem sendByte_dutyReg (v : Byte) : (sendByte v s).dutyReg = s.dutyReg := rfl
@[simp] theorem sendByte_halted (v : Byte) : (sendByte v s).halted = s.halted := rfl
@[simp] theorem sendByte_cause (v : Byte) : (sendByte v s).cause = s.cause := rfl
@[simp] theorem sendByte_curPrio (v : Byte) : (sendByte v s).curPrio = s.curPrio := rfl
@[simp] theorem sendByte_ledOut (v : Byte) : (sendByte v s).ledOut = s.ledOut := rfl
@[simp] theorem sendByte_serTx (v : Byte) : (sendByte v s).serTx = s.serTx ++ [v] := rfl
@[simp] theorem sendByte_trace (v : Byte) : (sendByte v s).trace = s.trace := rfl
@[simp] theorem sendByte_calls (v : Byte) : (sendByte v s).calls = s.calls := rfl
@[simp] theorem sendByte_ret (v : Byte) : (sendByte v s).ret = s.ret := rfl
@[simp] theorem sendByte_sectioned (v : Byte) : (sendByte v s).sectioned = s.sectioned := rfl
@[simp] theorem sendByte_stack (v : Byte) : (sendByte v s).stack = s.stack := rfl

@[simp] theorem resetTo_busy (c0 : U32) : (resetTo c0 s).busy = State.reset.busy := rfl
@[simp] theorem resetTo_contextSwitches (c0 : U32) : (resetTo c0 s).contextSwitches = State.reset.contextSwitches := rfl
@[simp] theorem resetTo_frames (c0 : U32) : (resetTo c0 s).frames = State.reset.frames := rfl
@[simp] theorem resetTo_sleepCycles (c0 : U32) : (resetTo c0 s).sleepCycles = State.reset.sleepCycles := rfl
@[simp] theorem resetTo_cycleCounter (c0 : U32) : (resetTo c0 s).cycleCounter = c0 := rfl
@[simp] theorem resetTo_bufRgb (c0 : U32) : (resetTo c0 s).bufRgb = State.reset.bufRgb := rfl
@[simp] theorem resetTo_bufRx (c0 : U32) : (resetTo c0 s).bufRx = State.reset.bufRx := rfl
@[simp] theorem resetTo_bufTxled (c0 : U32) : (resetTo c0 s).bufTxled = State.reset.bufTxled := rfl
@[simp] theorem resetTo_bufTxt (c0 : U32) : (resetTo c0 s).bufTxt = State.reset.bufTxt := rfl
@[simp] theorem resetTo_ownerRx (c0 : U32) : (resetTo c0 s).ownerRx = State.reset.ownerRx := rfl
@[simp] theorem resetTo_ownerTxled (c0 : U32) : (resetTo c0 s).ownerTxled = State.reset.ownerTxled := rfl
@[simp] theorem resetTo_ownerTxt (c0 : U32) : (resetTo c0 s).ownerTxt = State.reset.ownerTxt := rfl
@[simp] theorem resetTo_pend (c0 : U32) : (resetTo c0 s).pend = State.reset.pend := rfl
@[simp] theorem resetTo_latchRunning (c0 : U32) : (resetTo c0 s).latchRunning = State.reset.latchRunning := rfl
@[simp] theorem resetTo_latchExpired (c0 : U32) : (resetTo c0 s).latchExpired = State.reset.latchExpired := rfl
@[simp] theorem resetTo_chRx (c0 : U32) : (resetTo c0 s).chRx = State.reset.chRx := rfl
@[simp] theorem resetTo_chLed (c0 : U32) : (resetTo c0 s).chLed = State.reset.chLed := rfl
@[simp] theorem resetTo_chTel (c0 : U32) : (resetTo c0 s).chTel = State.reset.chTel := rfl
@[simp] theorem resetTo_dutyReg (c0 : U32) : (resetTo c0 s).dutyReg = State.reset.dutyReg := rfl
@[simp] theorem resetTo_halted (c0 : U32) : (resetTo c0 s).halted = State.reset.halted := rfl
@[simp] theorem resetTo_cause (c0 : U32) : (resetTo c0 s).cause = State.reset.cause := rfl
@[simp] theorem resetTo_curPrio (c0 : U32) : (resetTo c0 s).curPrio = State.reset.curPrio := rfl
@[simp] theorem resetTo_ledOut (c0 : U32) : (resetTo c0 s).ledOut = State.reset.ledOut := rfl
@[simp] theorem resetTo_serTx (c0 : U32) : (resetTo c0 s).serTx = State.reset.serTx := rfl
@[simp] theorem resetTo_trace (c0 : U32) : (resetTo c0 s).trace = s.trace := rfl
@[simp] theorem resetTo_calls (c0 : U32) : (resetTo c0 s).calls = s.calls := rfl
@[simp] theorem resetTo_ret (c0 : U32) : (resetTo c0 s).ret = State.reset.ret := rfl
@[simp] theorem resetTo_sectioned (c0 : U32) : (resetTo c0 s).sectioned = s.sectioned := rfl
@[simp] theorem resetTo_stack (c0 : U32) : (resetTo c0 s).stack = State.reset.stack := rfl

@[simp] theorem setBuf_busy (b : Buf) (m : Memory) : (s.setBuf b m).busy = s.busy := by cases b <;> rfl
@[simp] theorem setBuf_contextSwitches (b : Buf) (m : Memory) : (s.setBuf b m).contextSwitches = s.contextSwitches := by cases b <;> rfl
@[simp] theorem setBuf_frames (b : Buf) (m : Memory) : (s.setBuf b m).frames = s.frames := by cases b <;> rfl
@[simp] theorem setBuf_sleepCycles (b : Buf) (m : Memory) : (s.setBuf b m).sleepCycles = s.sleepCycles := by cases b <;> rfl
@[simp] theorem setBuf_cycleCounter (b : Buf) (m : Memory) : (s.setBuf b m).cycleCounter = s.cycleCounter := by cases b <;> rfl
@[simp] theorem setBuf_ownerRx (b : Buf) (m : Memory) : (s.setBuf b m).ownerRx = s.ownerRx := by cases b <;> rfl
@[simp] theorem setBuf_ownerTxled (b : Buf) (m : Memory) : (s.setBuf b m).ownerTxled = s.ownerTxled := by cases b <;> rfl
@[simp] theorem setBuf_ownerTxt (b : Buf) (m : Memory) : (s.setBuf b m).ownerTxt = s.ownerTxt := by cases b <;> rfl
@[simp] theorem setBuf_pend (b : Buf) (m : Memory) : (s.setBuf b m).pend = s.pend := by cases b <;> rfl
@[simp] theorem setBuf_latchRunning (b : Buf) (m : Memory) : (s.setBuf b m).latchRunning = s.latchRunning := by cases b <;> rfl
@[simp] theorem setBuf_latchExpired (b : Buf) (m : Memory) : (s.setBuf b m).latchExpired = s.latchExpired := by cases b <;> rfl
@[simp] theorem setBuf_chRx (b : Buf) (m : Memory) : (s.setBuf b m).chRx = s.chRx := by cases b <;> rfl
@[simp] theorem setBuf_chLed (b : Buf) (m : Memory) : (s.setBuf b m).chLed = s.chLed := by cases b <;> rfl
@[simp] theorem setBuf_chTel (b : Buf) (m : Memory) : (s.setBuf b m).chTel = s.chTel := by cases b <;> rfl
@[simp] theorem setBuf_dutyReg (b : Buf) (m : Memory) : (s.setBuf b m).dutyReg = s.dutyReg := by cases b <;> rfl
@[simp] theorem setBuf_halted (b : Buf) (m : Memory) : (s.setBuf b m).halted = s.halted := by cases b <;> rfl
@[simp] theorem setBuf_cause (b : Buf) (m : Memory) : (s.setBuf b m).cause = s.cause := by cases b <;> rfl
@[simp] theorem setBuf_curPrio (b : Buf) (m : Memory) : (s.setBuf b m).curPrio = s.curPrio := by cases b <;> rfl
@[simp] theorem setBuf_ledOut (b : Buf) (m : Memory) : (s.setBuf b m).ledOut = s.ledOut := by cases b <;> rfl
@[simp] theorem setBuf_serTx (b : Buf) (m : Memory) : (s.setBuf b m).serTx = s.serTx := by cases b <;> rfl
@[simp] theorem setBuf_trace (b : Buf) (m : Memory) : (s.setBuf b m).trace = s.trace := by cases b <;> rfl
@[simp] theorem setBuf_calls (b : Buf) (m : Memory) : (s.setBuf b m).calls = s.calls := by cases b <;> rfl
@[simp] theorem setBuf_ret (b : Buf) (m : Memory) : (s.setBuf b m).ret = s.ret := by cases b <;> rfl
@[simp] theorem setBuf_sectioned (b : Buf) (m : Memory) : (s.setBuf b m).sectioned = s.sectioned := by cases b <;> rfl
@[simp] theorem setBuf_stack (b : Buf) (m : Memory) : (s.setBuf b m).stack = s.stack := by cases b <;> rfl
@[simp] theorem setBuf_rgb_bufRgb (m : Memory) : (s.setBuf .rgb m).bufRgb = m := rfl
@[simp] theorem setBuf_rgb_bufRx (m : Memory) : (s.setBuf .rgb m).bufRx = s.bufRx := rfl
@[simp] theorem setBuf_rgb_bufTxled (m : Memory) : (s.setBuf .rgb m).bufTxled = s.bufTxled := rfl
@[simp] theorem setBuf_rgb_bufTxt (m : Memory) : (s.setBuf .rgb m).bufTxt = s.bufTxt := rfl
@[simp] theorem setBuf_rx_bufRgb (m : Memory) : (s.setBuf .rx m).bufRgb = s.bufRgb := rfl
@[simp] theorem setBuf_rx_bufRx (m : Memory) : (s.setBuf .rx m).bufRx = m := rfl
@[simp] theorem setBuf_rx_bufTxled (m : Memory) : (s.setBuf .rx m).bufTxled = s.bufTxled := rfl
@[simp] theorem setBuf_rx_bufTxt (m : Memory) : (s.setBuf .rx m).bufTxt = s.bufTxt := rfl
@[simp] theorem setBuf_txled_bufRgb (m : Memory) : (s.setBuf .txled m).bufRgb = s.bufRgb := rfl
@[simp] theorem setBuf_txled_bufRx (m : Memory) : (s.setBuf .txled m).bufRx = s.bufRx := rfl
@[simp] theorem setBuf_txled_bufTxled (m : Memory) : (s.setBuf .txled m).bufTxled = m := rfl
@[simp] theorem setBuf_txled_bufTxt (m : Memory) : (s.setBuf .txled m).bufTxt = s.bufTxt := rfl
@[simp] theorem setBuf_txt_bufRgb (m : Memory) : (s.setBuf .txt m).bufRgb = s.bufRgb := rfl
@[simp] theorem setBuf_txt_bufRx (m : Memory) : (s.setBuf .txt m).bufRx = s.bufRx := rfl
@[simp] theorem setBuf_txt_bufTxled (m : Memory) : (s.setBuf .txt m).bufTxled = s.bufTxled := rfl
@[simp] theorem setBuf_txt_bufTxt (m : Memory) : (s.setBuf .txt m).bufTxt = m := rfl

@[simp] theorem setOwner_busy (b : DmaBuf) (o : Owner) : (s.setOwner b o).busy = s.busy := by cases b <;> rfl
@[simp] theorem setOwner_contextSwitches (b : DmaBuf) (o : Owner) : (s.setOwner b o).contextSwitches = s.contextSwitches := by cases b <;> rfl
@[simp] theorem setOwner_frames (b : DmaBuf) (o : Owner) : (s.setOwner b o).frames = s.frames := by cases b <;> rfl
@[simp] theorem setOwner_sleepCycles (b : DmaBuf) (o : Owner) : (s.setOwner b o).sleepCycles = s.sleepCycles := by cases b <;> rfl
@[simp] theorem setOwner_cycleCounter (b : DmaBuf) (o : Owner) : (s.setOwner b o).cycleCounter = s.cycleCounter := by cases b <;> rfl
@[simp] theorem setOwner_bufRgb (b : DmaBuf) (o : Owner) : (s.setOwner b o).bufRgb = s.bufRgb := by cases b <;> rfl
@[simp] theorem setOwner_bufRx (b : DmaBuf) (o : Owner) : (s.setOwner b o).bufRx = s.bufRx := by cases b <;> rfl
@[simp] theorem setOwner_bufTxled (b : DmaBuf) (o : Owner) : (s.setOwner b o).bufTxled = s.bufTxled := by cases b <;> rfl
@[simp] theorem setOwner_bufTxt (b : DmaBuf) (o : Owner) : (s.setOwner b o).bufTxt = s.bufTxt := by cases b <;> rfl
@[simp] theorem setOwner_pend (b : DmaBuf) (o : Owner) : (s.setOwner b o).pend = s.pend := by cases b <;> rfl
@[simp] theorem setOwner_latchRunning (b : DmaBuf) (o : Owner) : (s.setOwner b o).latchRunning = s.latchRunning := by cases b <;> rfl
@[simp] theorem setOwner_latchExpired (b : DmaBuf) (o : Owner) : (s.setOwner b o).latchExpired = s.latchExpired := by cases b <;> rfl
@[simp] theorem setOwner_chRx (b : DmaBuf) (o : Owner) : (s.setOwner b o).chRx = s.chRx := by cases b <;> rfl
@[simp] theorem setOwner_chLed (b : DmaBuf) (o : Owner) : (s.setOwner b o).chLed = s.chLed := by cases b <;> rfl
@[simp] theorem setOwner_chTel (b : DmaBuf) (o : Owner) : (s.setOwner b o).chTel = s.chTel := by cases b <;> rfl
@[simp] theorem setOwner_dutyReg (b : DmaBuf) (o : Owner) : (s.setOwner b o).dutyReg = s.dutyReg := by cases b <;> rfl
@[simp] theorem setOwner_halted (b : DmaBuf) (o : Owner) : (s.setOwner b o).halted = s.halted := by cases b <;> rfl
@[simp] theorem setOwner_cause (b : DmaBuf) (o : Owner) : (s.setOwner b o).cause = s.cause := by cases b <;> rfl
@[simp] theorem setOwner_curPrio (b : DmaBuf) (o : Owner) : (s.setOwner b o).curPrio = s.curPrio := by cases b <;> rfl
@[simp] theorem setOwner_ledOut (b : DmaBuf) (o : Owner) : (s.setOwner b o).ledOut = s.ledOut := by cases b <;> rfl
@[simp] theorem setOwner_serTx (b : DmaBuf) (o : Owner) : (s.setOwner b o).serTx = s.serTx := by cases b <;> rfl
@[simp] theorem setOwner_trace (b : DmaBuf) (o : Owner) : (s.setOwner b o).trace = s.trace := by cases b <;> rfl
@[simp] theorem setOwner_calls (b : DmaBuf) (o : Owner) : (s.setOwner b o).calls = s.calls := by cases b <;> rfl
@[simp] theorem setOwner_ret (b : DmaBuf) (o : Owner) : (s.setOwner b o).ret = s.ret := by cases b <;> rfl
@[simp] theorem setOwner_sectioned (b : DmaBuf) (o : Owner) : (s.setOwner b o).sectioned = s.sectioned := by cases b <;> rfl
@[simp] theorem setOwner_stack (b : DmaBuf) (o : Owner) : (s.setOwner b o).stack = s.stack := by cases b <;> rfl
@[simp] theorem setOwner_rx_ownerRx (o : Owner) : (s.setOwner .rx o).ownerRx = o := rfl
@[simp] theorem setOwner_rx_ownerTxled (o : Owner) : (s.setOwner .rx o).ownerTxled = s.ownerTxled := rfl
@[simp] theorem setOwner_rx_ownerTxt (o : Owner) : (s.setOwner .rx o).ownerTxt = s.ownerTxt := rfl
@[simp] theorem setOwner_txled_ownerRx (o : Owner) : (s.setOwner .txled o).ownerRx = s.ownerRx := rfl
@[simp] theorem setOwner_txled_ownerTxled (o : Owner) : (s.setOwner .txled o).ownerTxled = o := rfl
@[simp] theorem setOwner_txled_ownerTxt (o : Owner) : (s.setOwner .txled o).ownerTxt = s.ownerTxt := rfl
@[simp] theorem setOwner_txt_ownerRx (o : Owner) : (s.setOwner .txt o).ownerRx = s.ownerRx := rfl
@[simp] theorem setOwner_txt_ownerTxled (o : Owner) : (s.setOwner .txt o).ownerTxled = s.ownerTxled := rfl
@[simp] theorem setOwner_txt_ownerTxt (o : Owner) : (s.setOwner .txt o).ownerTxt = o := rfl

@[simp] theorem updChan_busy (c : Channel) (f : ∀ width, DmaChannel width → DmaChannel width) : (s.updChan c f).busy = s.busy := by cases c <;> rfl
@[simp] theorem updChan_contextSwitches (c : Channel) (f : ∀ width, DmaChannel width → DmaChannel width) : (s.updChan c f).contextSwitches = s.contextSwitches := by cases c <;> rfl
@[simp] theorem updChan_frames (c : Channel) (f : ∀ width, DmaChannel width → DmaChannel width) : (s.updChan c f).frames = s.frames := by cases c <;> rfl
@[simp] theorem updChan_sleepCycles (c : Channel) (f : ∀ width, DmaChannel width → DmaChannel width) : (s.updChan c f).sleepCycles = s.sleepCycles := by cases c <;> rfl
@[simp] theorem updChan_cycleCounter (c : Channel) (f : ∀ width, DmaChannel width → DmaChannel width) : (s.updChan c f).cycleCounter = s.cycleCounter := by cases c <;> rfl
@[simp] theorem updChan_bufRgb (c : Channel) (f : ∀ width, DmaChannel width → DmaChannel width) : (s.updChan c f).bufRgb = s.bufRgb := by cases c <;> rfl
@[simp] theorem updChan_bufRx (c : Channel) (f : ∀ width, DmaChannel width → DmaChannel width) : (s.updChan c f).bufRx = s.bufRx := by cases c <;> rfl
@[simp] theorem updChan_bufTxled (c : Channel) (f : ∀ width, DmaChannel width → DmaChannel width) : (s.updChan c f).bufTxled = s.bufTxled := by cases c <;> rfl
@[simp] theorem updChan_bufTxt (c : Channel) (f : ∀ width, DmaChannel width → DmaChannel width) : (s.updChan c f).bufTxt = s.bufTxt := by cases c <;> rfl
@[simp] theorem updChan_ownerRx (c : Channel) (f : ∀ width, DmaChannel width → DmaChannel width) : (s.updChan c f).ownerRx = s.ownerRx := by cases c <;> rfl
@[simp] theorem updChan_ownerTxled (c : Channel) (f : ∀ width, DmaChannel width → DmaChannel width) : (s.updChan c f).ownerTxled = s.ownerTxled := by cases c <;> rfl
@[simp] theorem updChan_ownerTxt (c : Channel) (f : ∀ width, DmaChannel width → DmaChannel width) : (s.updChan c f).ownerTxt = s.ownerTxt := by cases c <;> rfl
@[simp] theorem updChan_pend (c : Channel) (f : ∀ width, DmaChannel width → DmaChannel width) : (s.updChan c f).pend = s.pend := by cases c <;> rfl
@[simp] theorem updChan_latchRunning (c : Channel) (f : ∀ width, DmaChannel width → DmaChannel width) : (s.updChan c f).latchRunning = s.latchRunning := by cases c <;> rfl
@[simp] theorem updChan_latchExpired (c : Channel) (f : ∀ width, DmaChannel width → DmaChannel width) : (s.updChan c f).latchExpired = s.latchExpired := by cases c <;> rfl
@[simp] theorem updChan_dutyReg (c : Channel) (f : ∀ width, DmaChannel width → DmaChannel width) : (s.updChan c f).dutyReg = s.dutyReg := by cases c <;> rfl
@[simp] theorem updChan_halted (c : Channel) (f : ∀ width, DmaChannel width → DmaChannel width) : (s.updChan c f).halted = s.halted := by cases c <;> rfl
@[simp] theorem updChan_cause (c : Channel) (f : ∀ width, DmaChannel width → DmaChannel width) : (s.updChan c f).cause = s.cause := by cases c <;> rfl
@[simp] theorem updChan_curPrio (c : Channel) (f : ∀ width, DmaChannel width → DmaChannel width) : (s.updChan c f).curPrio = s.curPrio := by cases c <;> rfl
@[simp] theorem updChan_ledOut (c : Channel) (f : ∀ width, DmaChannel width → DmaChannel width) : (s.updChan c f).ledOut = s.ledOut := by cases c <;> rfl
@[simp] theorem updChan_serTx (c : Channel) (f : ∀ width, DmaChannel width → DmaChannel width) : (s.updChan c f).serTx = s.serTx := by cases c <;> rfl
@[simp] theorem updChan_trace (c : Channel) (f : ∀ width, DmaChannel width → DmaChannel width) : (s.updChan c f).trace = s.trace := by cases c <;> rfl
@[simp] theorem updChan_calls (c : Channel) (f : ∀ width, DmaChannel width → DmaChannel width) : (s.updChan c f).calls = s.calls := by cases c <;> rfl
@[simp] theorem updChan_ret (c : Channel) (f : ∀ width, DmaChannel width → DmaChannel width) : (s.updChan c f).ret = s.ret := by cases c <;> rfl
@[simp] theorem updChan_sectioned (c : Channel) (f : ∀ width, DmaChannel width → DmaChannel width) : (s.updChan c f).sectioned = s.sectioned := by cases c <;> rfl
@[simp] theorem updChan_stack (c : Channel) (f : ∀ width, DmaChannel width → DmaChannel width) : (s.updChan c f).stack = s.stack := by cases c <;> rfl
@[simp] theorem updChan_rx_chRx (f : ∀ width, DmaChannel width → DmaChannel width) : (s.updChan .rx f).chRx = f 7 s.chRx := rfl
@[simp] theorem updChan_rx_chLed (f : ∀ width, DmaChannel width → DmaChannel width) : (s.updChan .rx f).chLed = s.chLed := rfl
@[simp] theorem updChan_rx_chTel (f : ∀ width, DmaChannel width → DmaChannel width) : (s.updChan .rx f).chTel = s.chTel := rfl
@[simp] theorem updChan_led_chRx (f : ∀ width, DmaChannel width → DmaChannel width) : (s.updChan .led f).chRx = s.chRx := rfl
@[simp] theorem updChan_led_chLed (f : ∀ width, DmaChannel width → DmaChannel width) : (s.updChan .led f).chLed = f 10 s.chLed := rfl
@[simp] theorem updChan_led_chTel (f : ∀ width, DmaChannel width → DmaChannel width) : (s.updChan .led f).chTel = s.chTel := rfl
@[simp] theorem updChan_tel_chRx (f : ∀ width, DmaChannel width → DmaChannel width) : (s.updChan .tel f).chRx = s.chRx := rfl
@[simp] theorem updChan_tel_chLed (f : ∀ width, DmaChannel width → DmaChannel width) : (s.updChan .tel f).chLed = s.chLed := rfl
@[simp] theorem updChan_tel_chTel (f : ∀ width, DmaChannel width → DmaChannel width) : (s.updChan .tel f).chTel = f 4 s.chTel := rfl

@[simp] theorem setLocalSnap_busy (v : Snapshot) : (s.setLocalSnap v).busy = s.busy := by unfold State.setLocalSnap; split <;> rfl
@[simp] theorem setLocalSnap_contextSwitches (v : Snapshot) : (s.setLocalSnap v).contextSwitches = s.contextSwitches := by unfold State.setLocalSnap; split <;> rfl
@[simp] theorem setLocalSnap_frames (v : Snapshot) : (s.setLocalSnap v).frames = s.frames := by unfold State.setLocalSnap; split <;> rfl
@[simp] theorem setLocalSnap_sleepCycles (v : Snapshot) : (s.setLocalSnap v).sleepCycles = s.sleepCycles := by unfold State.setLocalSnap; split <;> rfl
@[simp] theorem setLocalSnap_cycleCounter (v : Snapshot) : (s.setLocalSnap v).cycleCounter = s.cycleCounter := by unfold State.setLocalSnap; split <;> rfl
@[simp] theorem setLocalSnap_bufRgb (v : Snapshot) : (s.setLocalSnap v).bufRgb = s.bufRgb := by unfold State.setLocalSnap; split <;> rfl
@[simp] theorem setLocalSnap_bufRx (v : Snapshot) : (s.setLocalSnap v).bufRx = s.bufRx := by unfold State.setLocalSnap; split <;> rfl
@[simp] theorem setLocalSnap_bufTxled (v : Snapshot) : (s.setLocalSnap v).bufTxled = s.bufTxled := by unfold State.setLocalSnap; split <;> rfl
@[simp] theorem setLocalSnap_bufTxt (v : Snapshot) : (s.setLocalSnap v).bufTxt = s.bufTxt := by unfold State.setLocalSnap; split <;> rfl
@[simp] theorem setLocalSnap_ownerRx (v : Snapshot) : (s.setLocalSnap v).ownerRx = s.ownerRx := by unfold State.setLocalSnap; split <;> rfl
@[simp] theorem setLocalSnap_ownerTxled (v : Snapshot) : (s.setLocalSnap v).ownerTxled = s.ownerTxled := by unfold State.setLocalSnap; split <;> rfl
@[simp] theorem setLocalSnap_ownerTxt (v : Snapshot) : (s.setLocalSnap v).ownerTxt = s.ownerTxt := by unfold State.setLocalSnap; split <;> rfl
@[simp] theorem setLocalSnap_pend (v : Snapshot) : (s.setLocalSnap v).pend = s.pend := by unfold State.setLocalSnap; split <;> rfl
@[simp] theorem setLocalSnap_latchRunning (v : Snapshot) : (s.setLocalSnap v).latchRunning = s.latchRunning := by unfold State.setLocalSnap; split <;> rfl
@[simp] theorem setLocalSnap_latchExpired (v : Snapshot) : (s.setLocalSnap v).latchExpired = s.latchExpired := by unfold State.setLocalSnap; split <;> rfl
@[simp] theorem setLocalSnap_chRx (v : Snapshot) : (s.setLocalSnap v).chRx = s.chRx := by unfold State.setLocalSnap; split <;> rfl
@[simp] theorem setLocalSnap_chLed (v : Snapshot) : (s.setLocalSnap v).chLed = s.chLed := by unfold State.setLocalSnap; split <;> rfl
@[simp] theorem setLocalSnap_chTel (v : Snapshot) : (s.setLocalSnap v).chTel = s.chTel := by unfold State.setLocalSnap; split <;> rfl
@[simp] theorem setLocalSnap_dutyReg (v : Snapshot) : (s.setLocalSnap v).dutyReg = s.dutyReg := by unfold State.setLocalSnap; split <;> rfl
@[simp] theorem setLocalSnap_halted (v : Snapshot) : (s.setLocalSnap v).halted = s.halted := by unfold State.setLocalSnap; split <;> rfl
@[simp] theorem setLocalSnap_cause (v : Snapshot) : (s.setLocalSnap v).cause = s.cause := by unfold State.setLocalSnap; split <;> rfl
@[simp] theorem setLocalSnap_curPrio (v : Snapshot) : (s.setLocalSnap v).curPrio = s.curPrio := by unfold State.setLocalSnap; split <;> rfl
@[simp] theorem setLocalSnap_ledOut (v : Snapshot) : (s.setLocalSnap v).ledOut = s.ledOut := by unfold State.setLocalSnap; split <;> rfl
@[simp] theorem setLocalSnap_serTx (v : Snapshot) : (s.setLocalSnap v).serTx = s.serTx := by unfold State.setLocalSnap; split <;> rfl
@[simp] theorem setLocalSnap_trace (v : Snapshot) : (s.setLocalSnap v).trace = s.trace := by unfold State.setLocalSnap; split <;> rfl
@[simp] theorem setLocalSnap_calls (v : Snapshot) : (s.setLocalSnap v).calls = s.calls := by unfold State.setLocalSnap; split <;> rfl
@[simp] theorem setLocalSnap_ret (v : Snapshot) : (s.setLocalSnap v).ret = s.ret := by unfold State.setLocalSnap; split <;> rfl
@[simp] theorem setLocalSnap_sectioned (v : Snapshot) : (s.setLocalSnap v).sectioned = s.sectioned := by unfold State.setLocalSnap; split <;> rfl

/-! Reads by name after updates by name. -/
@[simp] theorem setBuf_buf_same (b : Buf) (m : Memory) : (s.setBuf b m).buf b = m := by cases b <;> rfl
@[simp] theorem setOwner_owner_same (b : DmaBuf) (o : Owner) : (s.setOwner b o).owner b = o := by cases b <;> rfl
@[simp] theorem setOwner_chanCnt (b : DmaBuf) (o : Owner) (c : Channel) : (s.setOwner b o).chanCnt c = s.chanCnt c := by
  cases b <;> cases c <;> rfl
@[simp] theorem setBuf_chanCnt (b : Buf) (m : Memory) (c : Channel) : (s.setBuf b m).chanCnt c = s.chanCnt c := by
  cases b <;> cases c <;> rfl
@[simp] theorem setOwner_chanDone (b : DmaBuf) (o : Owner) (c : Channel) : (s.setOwner b o).chanDone c = s.chanDone c := by
  cases b <;> cases c <;> rfl
@[simp] theorem setBuf_chanDone (b : Buf) (m : Memory) (c : Channel) : (s.setBuf b m).chanDone c = s.chanDone c := by
  cases b <;> cases c <;> rfl
@[simp] theorem setOwner_chanErr (b : DmaBuf) (o : Owner) (c : Channel) : (s.setOwner b o).chanErr c = s.chanErr c := by
  cases b <;> cases c <;> rfl
@[simp] theorem setBuf_chanErr (b : Buf) (m : Memory) (c : Channel) : (s.setBuf b m).chanErr c = s.chanErr c := by
  cases b <;> cases c <;> rfl
@[simp] theorem restart_chanCnt (c : Channel) : (s.restart c).chanCnt c = 0 := by cases c <;> rfl
@[simp] theorem restart_chanDone (c : Channel) : (s.restart c).chanDone c = false := by cases c <;> rfl
@[simp] theorem restart_chanErr (c : Channel) : (s.restart c).chanErr c = .none := by cases c <;> rfl
@[simp] theorem flagError_chanCnt (c : Channel) (e : XferErr) : (s.flagError c e).chanCnt c = s.chanCnt c := by
  cases c <;> rfl
@[simp] theorem flagError_chanDone (c : Channel) (e : XferErr) : (s.flagError c e).chanDone c = s.chanDone c := by
  cases c <;> rfl
@[simp] theorem flagError_chanErr (c : Channel) (e : XferErr) : (s.flagError c e).chanErr c = e := by cases c <;> rfl
@[simp] theorem updChan_owner (c : Channel) (f : ∀ width, DmaChannel width → DmaChannel width) (b : DmaBuf) :
    (s.updChan c f).owner b = s.owner b := by cases b <;> cases c <;> rfl
@[simp] theorem setBuf_owner (b : Buf) (m : Memory) (d : DmaBuf) : (s.setBuf b m).owner d = s.owner d := by
  cases b <;> cases d <;> rfl

/-! Pending bits. -/
@[simp] theorem get_set_same (p : PendingBits) (t : Irq) (v : Bool) : (p.set t v).get t = v := by cases t <;> rfl
theorem get_set_other (p : PendingBits) (t u : Irq) (v : Bool) (h : u ≠ t) : (p.set t v).get u = p.get u := by
  cases t <;> cases u <;> first | rfl | exact absurd rfl h
@[simp] theorem set_rxc_rxc (p : PendingBits) (v : Bool) : (p.set .rxc v).rxc = v := rfl
@[simp] theorem set_rxc_fstart (p : PendingBits) (v : Bool) : (p.set .rxc v).fstart = p.fstart := rfl
@[simp] theorem set_rxc_ledc (p : PendingBits) (v : Bool) : (p.set .rxc v).ledc = p.ledc := rfl
@[simp] theorem set_rxc_latch (p : PendingBits) (v : Bool) : (p.set .rxc v).latch = p.latch := rfl
@[simp] theorem set_rxc_tele (p : PendingBits) (v : Bool) : (p.set .rxc v).tele = p.tele := rfl
@[simp] theorem set_fstart_rxc (p : PendingBits) (v : Bool) : (p.set .fstart v).rxc = p.rxc := rfl
@[simp] theorem set_fstart_fstart (p : PendingBits) (v : Bool) : (p.set .fstart v).fstart = v := rfl
@[simp] theorem set_fstart_ledc (p : PendingBits) (v : Bool) : (p.set .fstart v).ledc = p.ledc := rfl
@[simp] theorem set_fstart_latch (p : PendingBits) (v : Bool) : (p.set .fstart v).latch = p.latch := rfl
@[simp] theorem set_fstart_tele (p : PendingBits) (v : Bool) : (p.set .fstart v).tele = p.tele := rfl
@[simp] theorem set_ledc_rxc (p : PendingBits) (v : Bool) : (p.set .ledc v).rxc = p.rxc := rfl
@[simp] theorem set_ledc_fstart (p : PendingBits) (v : Bool) : (p.set .ledc v).fstart = p.fstart := rfl
@[simp] theorem set_ledc_ledc (p : PendingBits) (v : Bool) : (p.set .ledc v).ledc = v := rfl
@[simp] theorem set_ledc_latch (p : PendingBits) (v : Bool) : (p.set .ledc v).latch = p.latch := rfl
@[simp] theorem set_ledc_tele (p : PendingBits) (v : Bool) : (p.set .ledc v).tele = p.tele := rfl
@[simp] theorem set_latch_rxc (p : PendingBits) (v : Bool) : (p.set .latch v).rxc = p.rxc := rfl
@[simp] theorem set_latch_fstart (p : PendingBits) (v : Bool) : (p.set .latch v).fstart = p.fstart := rfl
@[simp] theorem set_latch_ledc (p : PendingBits) (v : Bool) : (p.set .latch v).ledc = p.ledc := rfl
@[simp] theorem set_latch_latch (p : PendingBits) (v : Bool) : (p.set .latch v).latch = v := rfl
@[simp] theorem set_latch_tele (p : PendingBits) (v : Bool) : (p.set .latch v).tele = p.tele := rfl
@[simp] theorem set_tele_rxc (p : PendingBits) (v : Bool) : (p.set .tele v).rxc = p.rxc := rfl
@[simp] theorem set_tele_fstart (p : PendingBits) (v : Bool) : (p.set .tele v).fstart = p.fstart := rfl
@[simp] theorem set_tele_ledc (p : PendingBits) (v : Bool) : (p.set .tele v).ledc = p.ledc := rfl
@[simp] theorem set_tele_latch (p : PendingBits) (v : Bool) : (p.set .tele v).latch = p.latch := rfl
@[simp] theorem set_tele_tele (p : PendingBits) (v : Bool) : (p.set .tele v).tele = v := rfl

end Sys2Proof.Laws
end

