-- ==== Sys2Proof/Laws/Ops.lean ====
section
/-! SUPPORT. One lemma per shared operation that says everything it can do; later proofs cite these and unfold nothing. -/

namespace Sys2Proof.Laws

open Sys2Proof Sys2Proof.Machine

/-! ## Sequencing -/

@[simp] theorem andThen_next (s : State) (k : State → Result) :
    andThen (.next s) k = if s.halted then .next s else k s := rfl

@[simp] theorem andThen_fault (f : Fault) (k : State → Result) : andThen (.fault f) k = .fault f := rfl

@[simp] theorem andThen_refused (q : Refusal) (k : State → Result) : andThen (.refused q) k = .refused q := rfl

/-- What a sequence that answers next did: the first line answered next, and it either halted or the rest ran. -/
theorem andThen_eq_next {r : Result} {k : State → Result} {s' : State} :
    andThen r k = .next s' ↔
      ∃ s, r = .next s ∧ ((s.halted = true ∧ s' = s) ∨ (s.halted = false ∧ k s = .next s')) := by
  cases r with
  | next s =>
    rw [andThen_next]
    cases h : s.halted
    · simp only [Bool.false_eq_true, if_false]
      exact ⟨fun e => ⟨s, rfl, .inr ⟨h, e⟩⟩, by rintro ⟨_, ⟨⟩, ⟨h', _⟩ | ⟨_, e⟩⟩ <;> simp_all⟩
    · simp only [if_true, Host.Outcome.next.injEq]
      exact ⟨fun e => ⟨s, rfl, .inl ⟨h, e.symm⟩⟩, by rintro ⟨_, ⟨⟩, ⟨_, e⟩ | ⟨h', _⟩⟩ <;> simp_all⟩
  | fault f => simp
  | refused q => simp

/-- A sequence faults where its first line does, or where the rest does. -/
theorem andThen_eq_fault {r : Result} {k : State → Result} {f : Fault} :
    andThen r k = .fault f ↔ r = .fault f ∨ ∃ s, r = .next s ∧ s.halted = false ∧ k s = .fault f := by
  cases r with
  | next s => cases h : s.halted <;> simp [h]
  | fault f => simp
  | refused q => simp

@[simp] theorem whenRunning_running {s : State} (h : s.halted = false) (k : Result) : whenRunning s k = k := by
  simp [whenRunning, h]

@[simp] theorem whenRunning_halted {s : State} (h : s.halted = true) (k : Result) :
    whenRunning s k = .refused .machineHalted := by simp [whenRunning, h]

theorem whenRunning_eq_next {s s' : State} {k : Result} :
    whenRunning s k = .next s' ↔ s.halted = false ∧ k = .next s' := by
  cases h : s.halted <;> simp [whenRunning, h]

theorem whenRunning_eq_fault {s : State} {k : Result} {f : Fault} :
    whenRunning s k = .fault f ↔ s.halted = false ∧ k = .fault f := by
  cases h : s.halted <;> simp [whenRunning, h]

/-! ## Registers by name -/

@[simp] theorem owner_rx (s : State) : s.owner .rx = s.ownerRx := rfl
@[simp] theorem owner_txled (s : State) : s.owner .txled = s.ownerTxled := rfl
@[simp] theorem owner_txt (s : State) : s.owner .txt = s.ownerTxt := rfl
@[simp] theorem chanCnt_rx (s : State) : s.chanCnt .rx = s.chRx.cnt.toNat := rfl
@[simp] theorem chanDone_rx (s : State) : s.chanDone .rx = s.chRx.done := rfl
@[simp] theorem chanErr_rx (s : State) : s.chanErr .rx = s.chRx.err := rfl
@[simp] theorem chanCnt_led (s : State) : s.chanCnt .led = s.chLed.cnt.toNat := rfl
@[simp] theorem chanDone_led (s : State) : s.chanDone .led = s.chLed.done := rfl
@[simp] theorem chanErr_led (s : State) : s.chanErr .led = s.chLed.err := rfl
@[simp] theorem chanCnt_tel (s : State) : s.chanCnt .tel = s.chTel.cnt.toNat := rfl
@[simp] theorem chanDone_tel (s : State) : s.chanDone .tel = s.chTel.done := rfl
@[simp] theorem chanErr_tel (s : State) : s.chanErr .tel = s.chTel.err := rfl
@[simp] theorem buf_rgb (s : State) : s.buf .rgb = s.bufRgb := rfl
@[simp] theorem buf_rx (s : State) : s.buf .rx = s.bufRx := rfl
@[simp] theorem buf_txled (s : State) : s.buf .txled = s.bufTxled := rfl
@[simp] theorem buf_txt (s : State) : s.buf .txt = s.bufTxt := rfl

@[simp] theorem owner_setOwner (s : State) (b b' : DmaBuf) (o : Owner) :
    (s.setOwner b o).owner b' = if b' = b then o else s.owner b' := by
  cases b <;> cases b' <;> rfl

@[simp] theorem buf_setBuf (s : State) (b b' : Buf) (m : Memory) :
    (s.setBuf b m).buf b' = if b' = b then m else s.buf b' := by
  cases b <;> cases b' <;> rfl

@[simp] theorem buf_setOwner (s : State) (b : DmaBuf) (o : Owner) (b' : Buf) :
    (s.setOwner b o).buf b' = s.buf b' := by cases b <;> cases b' <;> rfl

@[simp] theorem buf_updChan (s : State) (c : Channel) (f : ∀ width, DmaChannel width → DmaChannel width) (b : Buf) :
    (s.updChan c f).buf b = s.buf b := by cases c <;> cases b <;> rfl

theorem get_set (p : PendingBits) (t u : Irq) (v : Bool) :
    (p.set t v).get u = if u = t then v else p.get u := by cases t <;> cases u <;> rfl

theorem get_noPending (t : Irq) : noPending.get t = false := by cases t <;> rfl

theorem any_eq_false {p : PendingBits} : p.any = false ↔ p = noPending := by
  cases p; simp [PendingBits.any, noPending, and_assoc]

theorem any_eq_true {p : PendingBits} : p.any = true ↔ ∃ t, p.get t = true := by
  cases p
  constructor
  · intro h
    simp only [PendingBits.any, Bool.or_eq_true] at h
    rcases h with (((h | h) | h) | h) | h
    exacts [⟨.rxc, h⟩, ⟨.fstart, h⟩, ⟨.ledc, h⟩, ⟨.latch, h⟩, ⟨.tele, h⟩]
  · rintro ⟨t, ht⟩
    cases t <;> simp_all [PendingBits.any, PendingBits.get]

/-! ## Dispatch -/

theorem mem_allIrqs (t : Irq) : t ∈ allIrqs := by cases t <;> decide

theorem pendingAbove_eq_false {s : State} {t : Irq} {p : Nat} :
    s.pendingAbove t p = false ↔ ∀ u, u ≠ t → s.pend.get u = true → Config.prio (.irq u) ≤ p := by
  constructor
  · intro h u hu hp
    have hf := List.any_eq_false.1 h u (mem_allIrqs u)
    simpa [hu, hp] using hf
  · intro h
    refine List.any_eq_false.2 fun u _ => ?_
    by_cases hu : u = t
    · simp [hu]
    · by_cases hp : s.pend.get u = true
      · simp [hu, hp, h u hu hp]
      · simp [hp]

/-- The conditions of `dispatch(t)` on the fields it reads. -/
abbrev dispatchConditions (t : Irq) (s : State) : Prop :=
  s.halted = false ∧ s.pend.get t = true ∧ s.curPrio < Config.prio (.irq t) ∧
    ∀ u, s.pend.get u = true → Config.prio (.irq u) ≤ Config.prio (.irq t)

/-- A dispatch runs its body where its conditions hold and refuses elsewhere, whatever the body
(40_arbitration.md R133). -/
theorem whenDispatchable_cases (t : Irq) (s : State) :
    (dispatchConditions t s ∧ ∀ k, whenDispatchable t s k = k) ∨
      (¬ dispatchConditions t s ∧ ∃ q, ∀ k, whenDispatchable t s k = .refused q) := by
  unfold whenDispatchable
  cases hh : s.halted
  · cases hp : s.pend.get t
    · exact .inr ⟨by simp [hp], _, fun _ => rfl⟩
    · by_cases hm : Config.prio (.irq t) ≤ s.curPrio
      · exact .inr ⟨by simp [Nat.not_lt.2 hm], _, fun _ => if_pos hm⟩
      · cases hr : s.pendingAbove t (Config.prio (.irq t))
        · refine .inl ⟨⟨hh, hp, Nat.lt_of_not_le hm, fun u hu => ?_⟩, fun k => by simp [hm]⟩
          by_cases hut : u = t
          · simp [hut]
          · exact pendingAbove_eq_false.1 hr u hut hu
        · refine .inr ⟨fun h => ?_, _, fun k => by simp [hm]; rfl⟩
          have : s.pendingAbove t (Config.prio (.irq t)) = false :=
            pendingAbove_eq_false.2 fun u _ hu => h.2.2.2 u hu
          simp [this] at hr
  · exact .inr ⟨by simp [hh], _, fun _ => rfl⟩

theorem whenDispatchable_eq_next {t : Irq} {s s' : State} {k : Result} :
    whenDispatchable t s k = .next s' ↔ dispatchConditions t s ∧ k = .next s' := by
  rcases whenDispatchable_cases t s with ⟨h, e⟩ | ⟨h, q, e⟩
  · rw [e]; exact ⟨fun x => ⟨h, x⟩, fun x => x.2⟩
  · rw [e]; exact ⟨nofun, fun x => absurd x.1 h⟩

theorem whenDispatchable_eq_fault {t : Irq} {s : State} {k : Result} {f : Fault} :
    whenDispatchable t s k = .fault f ↔ dispatchConditions t s ∧ k = .fault f := by
  rcases whenDispatchable_cases t s with ⟨h, e⟩ | ⟨h, q, e⟩
  · rw [e]; exact ⟨fun x => ⟨h, x⟩, fun x => x.2⟩
  · rw [e]; exact ⟨nofun, fun x => absurd x.1 h⟩

theorem whenDispatchable_of {t : Irq} {s : State} (h : Dispatchable t s) (k : Result) :
    whenDispatchable t s k = k := by
  rcases whenDispatchable_cases t s with ⟨_, e⟩ | ⟨hn, _⟩
  · exact e k
  · exact absurd ⟨h.running, h.pending, h.unmasked, h.first⟩ hn

/-! ## Task runs -/

@[simp] theorem runSections_nil (s : State) : runSections [] s = .next s := rfl

@[simp] theorem runSections_cons (f : State → Result) (fs : List (State → Result)) (s : State) :
    runSections (f :: fs) s = andThen (f s) (runSections fs) := rfl

@[simp] theorem taskStep_whole {t : Irq} {fs : List (State → Result)} {s : State} (h : s.sectioned = false) :
    taskStep t fs s = wholeRun t fs s := by simp [taskStep, h]

/-- A dispatched whole run is its sections in order and the return. -/
theorem wholeRun_of {t : Irq} {s : State} (h : Dispatchable t s) (fs : List (State → Result)) :
    wholeRun t fs s = andThen (runSections fs (enterTask t s)) leaveTask := whenDispatchable_of h _

/-- A whole run that answers next was dispatchable, and its sections and return answered it. -/
theorem wholeRun_eq_next {t : Irq} {fs : List (State → Result)} {s s' : State} (hm : s.sectioned = false) :
    wholeRun t fs s = .next s' ↔
      Dispatchable t s ∧ andThen (runSections fs (enterTask t s)) leaveTask = .next s' := by
  unfold wholeRun
  rw [whenDispatchable_eq_next]
  exact ⟨fun ⟨⟨a, b, c, d⟩, e⟩ => ⟨⟨a, b, c, d, hm⟩, e⟩,
    fun ⟨h, e⟩ => ⟨⟨h.running, h.pending, h.unmasked, h.first⟩, e⟩⟩

/-- A whole run that faults was dispatchable. -/
theorem wholeRun_eq_fault {t : Irq} {fs : List (State → Result)} {s : State} {f : Fault} (hm : s.sectioned = false)
    (h : wholeRun t fs s = .fault f) : Dispatchable t s := by
  obtain ⟨⟨a, b, c, d⟩, _⟩ := whenDispatchable_eq_fault.1 h
  exact ⟨a, b, c, d, hm⟩

/-! ## Ceilings -/

theorem foldr_max_le (ts : List Task) (n : Nat) :
    ts.foldr (fun t m => max (Config.prio t) m) 0 ≤ n ↔ ∀ t ∈ ts, Config.prio t ≤ n := by
  induction ts with
  | nil => simp
  | cons t ts ih => simp [ih]

/-- The test made accessor by accessor is the comparison with the ceiling (40_arbitration.md R131). -/
theorem mayAccess_iff (s : State) (r : Resource) : s.mayAccess r = true ↔ ceiling r ≤ s.curPrio := by
  simp [State.mayAccess, ceiling, foldr_max_le]

/-- The idle loop runs at the lowest priority (40_arbitration.md R130). -/
theorem prio_idle_lt (t : Irq) : Config.prio .idle < Config.prio (.irq t) :=
  Nat.lt_add_of_pos_right (Nat.succ_pos _)

/-- No accessor's priority is above the ceiling. -/
theorem prio_le_ceiling {r : Resource} {t : Task} (h : t ∈ accessors r) : Config.prio t ≤ ceiling r :=
  (foldr_max_le (accessors r) (ceiling r)).1 (Nat.le_refl _) t h

/-! ## Submit and release -/

theorem submit_cpu {b : DmaBuf} {c : Channel} {s : State} (h : s.owner b = .cpu) :
    submit b c s = ((s.setOwner b .dma).restart c, true) := by simp [submit, h]

theorem submit_dma {b : DmaBuf} {c : Channel} {s : State} (h : s.owner b = .dma) :
    submit b c s = (s, false) := by simp [submit, h]

theorem submitOrRaise_cpu {b : DmaBuf} {c : Channel} {s : State} (h : s.owner b = .cpu) :
    submitOrRaise b c s = .next ((s.setOwner b .dma).restart c) := by
  simp [submitOrRaise, submit_cpu h]

theorem submitOrRaise_dma {b : DmaBuf} {c : Channel} {s : State} (h : s.owner b = .dma) :
    submitOrRaise b c s = raiseFatal .submitBusy s := by simp [submitOrRaise, submit_dma h]

theorem releaseOrRaise_done {b : DmaBuf} {c : Channel} {s : State} (h : s.owner b = .dma)
    (he : s.chanErr c = .none) (hd : s.chanDone c = true) :
    releaseOrRaise b c s = .next (s.setOwner b .cpu) := by simp [releaseOrRaise, release, h, he, hd]

theorem releaseOrRaise_err {b : DmaBuf} {c : Channel} {s : State} (h : s.owner b = .dma)
    (he : s.chanErr c ≠ .none) :
    releaseOrRaise b c s = raiseFatal (errCause (s.chanErr c)) (s.setOwner b .cpu) := by
  simp [releaseOrRaise, release, h, he]

theorem releaseOrRaise_incomplete {b : DmaBuf} {c : Channel} {s : State}
    (h : s.owner b = .cpu ∨ (s.chanErr c = .none ∧ s.chanDone c = false)) :
    releaseOrRaise b c s = raiseFatal .releaseIncomplete s := by
  unfold releaseOrRaise release
  rcases h with h | ⟨he, hd⟩
  · simp [h]
  · by_cases ho : s.owner b = .cpu <;> simp [ho, he, hd]

theorem inFlight_iff {s : State} {b : DmaBuf} {c : Channel} :
    s.inFlight b c = true ↔ s.owner b = .dma ∧ s.chanDone c = false ∧ s.chanErr c = .none := by
  simp [State.inFlight, and_assoc]

/-- A transfer that is not in flight: the buffer is back, or the transfer is over. -/
theorem inFlight_false_iff {s : State} {b : DmaBuf} {c : Channel} :
    s.inFlight b c = false ↔ s.owner b = .cpu ∨ s.chanDone c = true ∨ s.chanErr c ≠ .none := by
  rw [← Bool.not_eq_true, inFlight_iff]
  cases s.owner b <;> cases s.chanDone c <;> simp

/-! ## Buffer accesses -/

/-- A read that is allowed, inside the buffer and of bytes that hold values. -/
theorem memRead_ok {b : Buf} {i n : Nat} {s : State} {k : List Byte → Result} {vs : List Byte}
    (ht : s.cpuMayTouch b = true) (hn : i + n ≤ bufSize b) (hv : (s.buf b).readRange i n = some vs) :
    memRead b i n s k = k vs := by
  simp [memRead, ht, Nat.not_lt.2 hn, hv]

/-- A write that is allowed and inside the buffer. -/
theorem memWrite_ok {b : Buf} {i : Nat} {s : State} {vs : List Byte}
    (ht : s.cpuMayTouch b = true) (hn : i + vs.length ≤ bufSize b) :
    memWrite b i vs s = .next (s.setBuf b ((s.buf b).writeRange i vs)) := by
  simp [memWrite, ht, Nat.not_lt.2 hn]

theorem dmaRead_ok {b : DmaBuf} {i : Nat} {s : State} {k : Byte → Result} {v : Byte}
    (hn : i < bufSize (dmaBuf b)) (hv : (s.buf (dmaBuf b)).read i = some v) :
    dmaRead b i s k = k v := by
  simp [dmaRead, Nat.not_le.2 hn, hv]

theorem dmaWrite_ok {b : DmaBuf} {i : Nat} {v : Byte} {s : State} {k : State → Result}
    (hn : i < bufSize (dmaBuf b)) :
    dmaWrite b i v s k = k (s.setBuf (dmaBuf b) ((s.buf (dmaBuf b)).writeRange i [v])) := by
  simp [dmaWrite, Nat.not_le.2 hn]

/-! ## Counts (10_state.md R34): no wrap below the width -/

theorem cnt_add {w : Nat} {c : BitVec w} {n : Nat} (h : c.toNat + n < 2 ^ w) :
    (c + BitVec.ofNat w n).toNat = c.toNat + n := by
  rw [BitVec.toNat_add, BitVec.toNat_ofNat, Nat.add_mod_mod, Nat.mod_eq_of_lt h]

theorem cnt_succ {w : Nat} {c : BitVec w} (h : c.toNat + 1 < 2 ^ w) : (c + 1).toNat = c.toNat + 1 := cnt_add h

/-- One byte and then `n` more are `n + 1` bytes. -/
theorem cnt_one_add {w : Nat} (c : BitVec w) (n : Nat) : c + 1 + BitVec.ofNat w n = c + BitVec.ofNat w (n + 1) := by
  rw [BitVec.add_assoc, Nat.add_comm n 1, BitVec.ofNat_add]; rfl

/-! ## The beats (41_dma_buffers.md R153 to R155) -/

/-- A byte of a transfer in flight. -/
theorem rxBeat_store {s : State} (v : Byte) (h : s.inFlight .rx .rx = true) (hc : s.chRx.cnt.toNat < 72) :
    rxBeat v s = .next
      { s with
        bufRx := s.bufRx.writeRange s.chRx.cnt.toNat [v]
        chRx := { cnt := s.chRx.cnt + 1, done := decide (s.chRx.cnt.toNat + 1 = 72), err := .none }
        pend := { s.pend with rxc := s.pend.rxc || decide (s.chRx.cnt.toNat + 1 = 72) } } := by
  obtain ⟨_, hd, he⟩ := inFlight_iff.1 h
  simp only [chanDone_rx, chanErr_rx] at hd he
  rw [rxBeat, if_pos h, dmaWrite_ok (b := .rx) hc]
  by_cases e : s.chRx.cnt.toNat + 1 = 72
  · simp only [DmaChannel.advance, hd, he, State.request, PendingBits.set, Config.frameBytes, dmaBuf, State.setBuf,
      State.buf, e]
    simp
  · simp only [DmaChannel.advance, hd, he, Config.frameBytes, dmaBuf, State.setBuf, State.buf, e]
    simp; omega

/-- A byte without a transfer in flight stores nothing. -/
theorem rxBeat_lost {s : State} (v : Byte) (h : s.inFlight .rx .rx = false) :
    rxBeat v s = .next
      (if s.chRx.err = .none then
        { s with chRx := { s.chRx with err := .overrun }, pend := { s.pend with rxc := true } } else s) := by
  rw [rxBeat, h]
  by_cases e : s.chRx.err = .none <;> simp [e, State.request, PendingBits.set]

/-- A cell of a refresh in flight. -/
theorem ledBeat_send {s : State} {d : Byte} (h : s.inFlight .txled .led = true) (hc : s.chLed.cnt.toNat < 577)
    (hv : s.bufTxled.read s.chLed.cnt.toNat = some d) : ledBeat s = .next (sendCell d s) := by
  rw [ledBeat, if_pos h, dmaRead_ok (b := .txled) hc hv]

theorem sendCell_eq {s : State} (d : Byte) (h : s.inFlight .txled .led = true) :
    sendCell d s =
      { s with
        dutyReg := d
        ledOut := s.ledOut ++ [.cell d]
        chLed := { cnt := s.chLed.cnt + 1, done := decide (s.chLed.cnt.toNat + 1 = 577), err := .none }
        pend := { s.pend with ledc := s.pend.ledc || decide (s.chLed.cnt.toNat + 1 = 577) } } := by
  obtain ⟨_, hd, he⟩ := inFlight_iff.1 h
  simp only [chanDone_led, chanErr_led] at hd he
  by_cases e : s.chLed.cnt.toNat + 1 = 577
  · simp only [sendCell, DmaChannel.advance, hd, he, State.request, PendingBits.set, Config.ledBufBytes, e]
    simp
  · simp only [sendCell, DmaChannel.advance, hd, he, Config.ledBufBytes, e]
    simp; omega

/-- A byte of a report in flight. -/
theorem telBeat_send {s : State} {v : Byte} (h : s.inFlight .txt .tel = true) (hc : s.chTel.cnt.toNat < 13)
    (hv : s.bufTxt.read s.chTel.cnt.toNat = some v) : telBeat s = .next (sendByte v s) := by
  rw [telBeat, if_pos h, dmaRead_ok (b := .txt) hc hv]

theorem sendByte_eq {s : State} (v : Byte) (h : s.inFlight .txt .tel = true) :
    sendByte v s =
      { s with
        serTx := s.serTx ++ [v]
        chTel := { cnt := s.chTel.cnt + 1, done := decide (s.chTel.cnt.toNat + 1 = 13), err := .none } } := by
  obtain ⟨_, hd, he⟩ := inFlight_iff.1 h
  simp only [chanDone_tel, chanErr_tel] at hd he
  simp only [sendByte, DmaChannel.advance, hd, he, Config.teleBytes, Bool.false_or]
  rfl

end Sys2Proof.Laws
end

