-- ==== Sys2Proof/Laws/Encoder.lean ====
section
/-! SUPPORT. The encoder's pieces: the duty codes' order, the length and the cells of `ENC` (43_ws2812b_encoder.md). -/

namespace Sys2Proof.Laws

open Sys2Proof Sys2Proof.Machine

/-! ## The duty codes (00_scope.md R9) -/

theorem dutyShort_pos : 0 < Config.dutyShort.toNat := by
  simp only [Config.dutyShort, BitVec.toNat_ofNat]; omega

theorem dutyShort_lt_255 : Config.dutyShort.toNat < 255 := by
  simp only [Config.dutyShort, BitVec.toNat_ofNat]; omega

theorem dutyShort_lt_dutyLong : Config.dutyShort.toNat < Config.dutyLong.toNat := by
  have h := dutyShort_lt_255
  have := Nat.mod_lt Config.dutyLongSeed (Nat.sub_pos_of_lt h)
  simp only [Config.dutyLong, BitVec.toNat_ofNat]
  omega

theorem dutyShort_ne_dutyLong : Config.dutyShort ≠ Config.dutyLong := fun h =>
  Nat.ne_of_lt dutyShort_lt_dutyLong (congrArg BitVec.toNat h)

theorem dutyShort_ne_zero : Config.dutyShort ≠ 0 := fun h =>
  Nat.ne_of_gt dutyShort_pos (congrArg BitVec.toNat h)

theorem dutyLong_ne_zero : Config.dutyLong ≠ 0 := fun h => by
  have := dutyShort_lt_dutyLong
  rw [h] at this
  exact Nat.not_lt_zero _ this

/-- No data cell is the reset cell. -/
theorem dutyCell_ne_zero (b : Bool) : dutyCell b ≠ 0 := by
  cases b
  · exact dutyShort_ne_zero
  · exact dutyLong_ne_zero

theorem dutyCell_ne_reset (b : Bool) : dutyCell b ≠ Config.dutyReset := dutyCell_ne_zero b

theorem dutyCell_eq_dutyLong {b : Bool} : dutyCell b = Config.dutyLong ↔ b = true := by
  cases b <;> simp [dutyCell, dutyShort_ne_dutyLong]

/-- A data cell gives its bit back. -/
@[simp] theorem cellBit_dutyCell (b : Bool) : cellBit (dutyCell b) = some b := by
  cases b <;> simp [cellBit, dutyCell, dutyShort_ne_dutyLong]

/-- Data cells give their bits back. -/
@[simp] theorem cellBits_map (bits : List Bool) : cellBits (bits.map dutyCell) = some bits := by
  induction bits with
  | nil => rfl
  | cons b bits ih => simp [cellBits, ih]

/-! ## `ENC` -/

@[simp] theorem enc_length (p : List Byte) : (enc p).length = 577 := by
  simp [enc, Config.nCells]

/-- Cells below 576 are the closed form's. -/
theorem enc_getElem? (p : List Byte) {n : Nat} (h : n < 576) : (enc p)[n]? = some (encCell p n) := by
  rw [enc, List.getElem?_append_left (by simpa [Config.nCells] using h)]
  simp [Config.nCells, h]

theorem enc_getD (p : List Byte) {n : Nat} (h : n < 576) (d : Byte) : (enc p).getD n d = encCell p n := by
  rw [List.getD_eq_getElem?_getD, enc_getElem? p h]; rfl

/-- Cell 576 is the reset cell. -/
theorem enc_getElem?_reset (p : List Byte) : (enc p)[576]? = some 0 := by
  rw [enc, List.getElem?_append_right (by simp [Config.nCells])]
  simp [Config.nCells, Config.dutyReset]

/-- No data cell of a refresh is the reset cell. -/
theorem encCell_ne_zero (p : List Byte) (n : Nat) : encCell p n ≠ 0 := dutyCell_ne_zero _

/-- Cell `24 i + 8 k + j` is bit `7 - j` of output position `k` of LED `i` (R212). -/
theorem encCell_at (p : List Byte) (i k j : Nat) (hk : k < 3) (hj : j < 8) :
    encCell p (24 * i + 8 * k + j) = cell ((p.getD (3 * i + channelByte k) 0).getLsbD (7 - j)) := by
  unfold encCell
  rw [show (24 * i + 8 * k + j) / 24 = i by omega, show (24 * i + 8 * k + j) % 24 / 8 = k by omega,
    show (24 * i + 8 * k + j) % 8 = j by omega]

/-- The 24 cells of one LED by their position. -/
theorem groupCells_eq (g r b : Byte) :
    groupCells g r b = (List.range 24).map fun m =>
      cell ((if m / 8 = 0 then g else if m / 8 = 1 then r else b).getLsbD (7 - m % 8)) := rfl

/-! ## Blocks of a range -/

/-- `n` blocks of `k` are one range of `n * k`. -/
theorem flatMap_range {α : Type} (n k : Nat) (f : Nat → Nat → α) :
    ((List.range n).flatMap fun i => (List.range k).map (f i)) =
      (List.range (n * k)).map (fun m => f (m / k) (m % k)) := by
  rcases Nat.eq_zero_or_pos k with rfl | hk
  · simp
  induction n with
  | zero => simp
  | succ n ih =>
    rw [List.range_succ, List.flatMap_append, ih, Nat.succ_mul, List.range_add, List.map_append]
    simp only [List.flatMap_cons, List.flatMap_nil, List.append_nil, List.map_map]
    refine congrArg _ (List.map_congr_left fun a ha => ?_)
    have ha := List.mem_range.1 ha
    simp [Nat.mul_comm n k, Nat.mul_add_div hk, Nat.div_eq_of_lt ha, Nat.mod_eq_of_lt ha]

/-- A sum over `n` blocks of `k` is one sum over a range of `n * k`. -/
theorem sum_blocks (n k : Nat) (f : Nat → Nat → Nat) :
    ((List.range (n * k)).map (fun m => f (m / k) (m % k))).sum =
      ((List.range n).map fun i => ((List.range k).map (f i)).sum).sum := by
  rw [← flatMap_range n k f]
  induction List.range n with
  | nil => rfl
  | cons a l ih => simp [ih]

end Sys2Proof.Laws
end

