-- ==== Sys2Proof/Laws/Encoding.lean ====
section
/-! SUPPORT. The readers undo the writers, operand by operand (30_encoding.md R97, R101, R103, R107). -/

namespace Sys2Proof.Laws

open Sys2Proof Sys2Proof.Machine

/-! ## Little-endian assembly (R103) -/

theorem le16_toNat (v : U16) :
    v.toNat = (v.extractLsb' 0 8).toNat + 256 * (v.extractLsb' 8 8).toNat := by
  have := v.isLt
  simp only [BitVec.extractLsb'_toNat, Nat.shiftRight_eq_div_pow]
  omega

theorem le32_toNat (v : U32) :
    v.toNat = (v.extractLsb' 0 8).toNat + 256 * (v.extractLsb' 8 8).toNat +
      65536 * (v.extractLsb' 16 8).toNat + 16777216 * (v.extractLsb' 24 8).toNat := by
  have := v.isLt
  simp only [BitVec.extractLsb'_toNat, Nat.shiftRight_eq_div_pow]
  omega

@[simp] theorem ofLe16_extract (v : U16) : ofLe16 (v.extractLsb' 0 8) (v.extractLsb' 8 8) = v := by
  apply BitVec.eq_of_toNat_eq
  rw [ofLe16, ← le16_toNat, BitVec.toNat_ofNat, Nat.mod_eq_of_lt v.isLt]

@[simp] theorem ofLe32_extract (v : U32) :
    ofLe32 (v.extractLsb' 0 8) (v.extractLsb' 8 8) (v.extractLsb' 16 8) (v.extractLsb' 24 8) = v := by
  apply BitVec.eq_of_toNat_eq
  rw [ofLe32, ← le32_toNat, BitVec.toNat_ofNat, Nat.mod_eq_of_lt v.isLt]

theorem le16_ofLe16 (b0 b1 : Byte) : le16 (ofLe16 b0 b1) = [b0, b1] := by
  have h0 := b0.isLt
  have h1 := b1.isLt
  simp only [le16, ofLe16, List.cons.injEq, and_true]
  constructor <;> apply BitVec.eq_of_toNat_eq <;>
    simp only [BitVec.extractLsb'_toNat, BitVec.toNat_ofNat, Nat.shiftRight_eq_div_pow] <;> omega

theorem le32_ofLe32 (b0 b1 b2 b3 : Byte) : le32 (ofLe32 b0 b1 b2 b3) = [b0, b1, b2, b3] := by
  have h0 := b0.isLt
  have h1 := b1.isLt
  have h2 := b2.isLt
  have h3 := b3.isLt
  simp only [le32, ofLe32, List.cons.injEq, and_true]
  refine ⟨?_, ?_, ?_, ?_⟩ <;> apply BitVec.eq_of_toNat_eq <;>
    simp only [BitVec.extractLsb'_toNat, BitVec.toNat_ofNat, Nat.shiftRight_eq_div_pow] <;> omega

/-! ## Readers -/

@[simp] theorem after_ok {α β : Type} (a : α) (bs : List Byte) (k : α → List Byte → Parsed β) :
    after (.ok (a, bs)) k = k a bs := rfl

@[simp] theorem after_error {α β : Type} (e : DecodeError) (k : α → List Byte → Parsed β) :
    after (.error e : Parsed α) k = .error e := rfl

@[simp] theorem read32_le32 (v : U32) (rest : List Byte) : read32 (le32 v ++ rest) = .ok (v, rest) := by
  simp [le32, read32]

@[simp] theorem readSnap_snapPayload (x : Snapshot) (rest : List Byte) :
    readSnap (snapPayload x ++ rest) = .ok (x, rest) := by
  simp [snapPayload, le32, le16, readSnap]

@[simp] theorem snapPayload_length (x : Snapshot) : (snapPayload x).length = 11 := by
  simp [snapPayload, le32, le16]

theorem readBytes_append {n : Nat} {p : List Byte} (h : p.length = n) (rest : List Byte) :
    readBytes n (p ++ rest) = .ok (p, rest) := by
  subst h; simp [readBytes]

@[simp] theorem readCode_resource (r : Resource) (e : DecodeError) (rest : List Byte) :
    readCode Resource.ofCode e (r.code :: rest) = .ok (r, rest) := by cases r <;> rfl

@[simp] theorem readCode_buf (b : DmaBuf) (e : DecodeError) (rest : List Byte) :
    readCode DmaBuf.ofCode e (b.code :: rest) = .ok (b, rest) := by cases b <;> rfl

@[simp] theorem readCode_channel (c : Channel) (e : DecodeError) (rest : List Byte) :
    readCode Channel.ofCode e (c.code :: rest) = .ok (c, rest) := by cases c <;> rfl

@[simp] theorem readCode_irq (t : Irq) (e : DecodeError) (rest : List Byte) :
    readCode Irq.ofCode e (t.code :: rest) = .ok (t, rest) := by cases t <;> rfl

theorem readCode_cause {c : Cause} (h : c ≠ .none) (e : DecodeError) (rest : List Byte) :
    readCode Cause.ofCode e (c.code :: rest) = .ok (c, rest) := by
  cases c <;> first | rfl | exact absurd rfl h

theorem readCode_kind {k : XferErr} (h : k ≠ .none) (e : DecodeError) (rest : List Byte) :
    readCode XferErr.ofCode e (k.code :: rest) = .ok (k, rest) := by
  cases k <;> first | rfl | exact absurd rfl h

theorem readBinding_code {b : DmaBuf} {c : Channel} (h : boundTogether b c = true) (rest : List Byte) :
    readBinding (b.code :: c.code :: rest) = .ok ((b, c), rest) := by
  simp [readBinding, h]

/-- A sequence of readers that answers: the first one did, and the rest did on what it left. -/
theorem after_eq_ok {α β : Type} {p : Parsed α} {k : α → List Byte → Parsed β} {x : β × List Byte} :
    after p k = .ok x ↔ ∃ a bs, p = .ok (a, bs) ∧ k a bs = .ok x := by
  cases p with
  | ok y => exact ⟨fun h => ⟨y.1, y.2, rfl, h⟩, by rintro ⟨a, bs, ⟨⟩, h⟩; exact h⟩
  | error e => simp

/-- No operation decodes to a data item (R101, R102). -/
theorem decodeOp_not_data {bs rest : List Byte} {i : Instr} (h : decodeOp bs = .ok (i, rest)) : i.cls ≠ .data := by
  cases bs with
  | nil => cases h
  | cons id bs =>
    simp only [decodeOp] at h
    split at h
    all_goals (try simp only [after_eq_ok] at h)
    all_goals first
      | (cases h; done)
      | (cases h; simp [Instr.cls]; done)
      | (obtain ⟨_, _, _, h⟩ := h; cases h; simp [Instr.cls]; done)
      | (obtain ⟨_, _, _, _, _, _, h⟩ := h; cases h; simp [Instr.cls])
      | (obtain ⟨_, _, _, _, _, _, h⟩ := h; split at h <;> cases h; simp [Instr.cls])

/-- A body read with as much fuel as it has bytes is the body written. -/
theorem readBlock_encode (k : Block) :
    ∀ (fuel : Nat) (rest : List Byte), k.wf = true → k.encode.length ≤ fuel →
      readBlock fuel (k.encode ++ rest) = .ok (k, rest) := by
  have pos : ∀ {n fuel : Nat}, n + 1 ≤ fuel → ∃ m, fuel = m + 1 ∧ n ≤ m := fun {n fuel} h =>
    ⟨fuel - 1, by omega, by omega⟩
  induction k with
  | done =>
    intro fuel rest _ hf
    obtain ⟨m, rfl, _⟩ := pos (n := 0) (by simpa [Block.encode] using hf)
    rfl
  | access r k ih =>
    intro fuel rest hw hf
    simp only [Block.encode, List.length_cons] at hf
    obtain ⟨m, rfl, hm⟩ := pos hf
    simp [Block.encode, readBlock, ih m rest hw (by omega)]
  | atomic r body k ihb ihk =>
    intro fuel rest hw hf
    simp only [Block.encode, List.length_cons, List.length_append] at hf
    obtain ⟨m, rfl, hm⟩ := pos hf
    simp only [Block.wf, Bool.and_eq_true] at hw
    simp [Block.encode, readBlock, ihb m _ hw.1 (by omega), ihk m rest hw.2 (by omega)]
  | submit b c k ih =>
    intro fuel rest hw hf
    simp only [Block.encode, List.length_cons] at hf
    obtain ⟨m, rfl, hm⟩ := pos hf
    simp only [Block.wf, Bool.and_eq_true] at hw
    simp [Block.encode, readBlock, readBinding_code hw.1, ih m rest hw.2 (by omega)]
  | release b c k ih =>
    intro fuel rest hw hf
    simp only [Block.encode, List.length_cons] at hf
    obtain ⟨m, rfl, hm⟩ := pos hf
    simp only [Block.wf, Bool.and_eq_true] at hw
    simp [Block.encode, readBlock, readBinding_code hw.1, ih m rest hw.2 (by omega)]
  | pend t k ih =>
    intro fuel rest hw hf
    simp only [Block.encode, List.length_cons] at hf
    obtain ⟨m, rfl, hm⟩ := pos hf
    simp [Block.encode, readBlock, ih m rest hw (by omega)]
  | wfi d k ih =>
    intro fuel rest hw hf
    simp only [Block.encode, List.length_cons, List.length_append] at hf
    obtain ⟨m, rfl, hm⟩ := pos hf
    simp [Block.encode, readBlock, ih m rest hw (by omega)]
  | halt c k ih =>
    intro fuel rest hw hf
    simp only [Block.encode, List.length_cons] at hf
    obtain ⟨m, rfl, hm⟩ := pos hf
    simp only [Block.wf, Bool.and_eq_true, bne_iff_ne, ne_eq] at hw
    simp [Block.encode, readBlock, readCode_cause hw.1, ih m rest hw.2 (by omega)]

/-! ## Reports (44_telemetry.md R252, R253) -/

theorem ser_eq (x : Snapshot) : ser x = Config.syncHead :: (snapPayload x ++ [Config.syncTail]) := rfl

@[simp] theorem ser_length (x : Snapshot) : (ser x).length = 13 := rfl

@[simp] theorem des_snapPayload (x : Snapshot) : des (snapPayload x) = some x := by
  have h := readSnap_snapPayload x []
  rw [List.append_nil] at h
  simp [des, h]

/-- The payload of a report, with anything after the report. -/
theorem ser_payload (x : Snapshot) (rest : List Byte) : ((ser x ++ rest).drop 1).take 11 = snapPayload x := rfl

/-! ## Bits of a byte -/

theorem ofMsbBits_msbBits (v : Byte) : ofMsbBits (msbBits v) = v := by revert v; decide

@[simp] theorem msbBits_length (v : Byte) : (msbBits v).length = 8 := by simp [msbBits]

end Sys2Proof.Laws
end

