-- ==== Sys2Proof/Laws/Tasks.lean ====
section
/-! SUPPORT. The sections of the five interrupt tasks, one lemma per section and outcome (42_frame_pipeline.md R181 to R184, 44_telemetry.md R251). -/

namespace Sys2Proof.Laws

open Sys2Proof Sys2Proof.Machine

/-- A section that answers next unhalted hands on to the rest. -/
theorem runSections_step {f : State → Result} {fs : List (State → Result)} {s s1 : State} {r : Result}
    (h : f s = .next s1) (hr : s1.halted = false) (hk : runSections fs s1 = r) : runSections (f :: fs) s = r := by
  rw [runSections_cons, h, andThen_next, hr]; exact hk

/-- A section that halts ends the run. -/
theorem runSections_halt {f : State → Result} {fs : List (State → Result)} {s s1 : State}
    (h : f s = .next s1) (hr : s1.halted = true) : runSections (f :: fs) s = .next s1 := by
  rw [runSections_cons, h, andThen_next, hr]; rfl

/-- The return restores the priority the entry remembered. -/
theorem leaveTask_cons {s : State} {a : Activation} {rest : List Activation} (h : s.stack = a :: rest) :
    leaveTask s = .next { s with curPrio := a.saved, stack := rest } := by
  unfold leaveTask; rw [h]

/-- A dispatched run whose sections end unhalted returns to the priority it found. -/
theorem taskStep_next {t : Irq} {fs : List (State → Result)} {s s1 : State} {a : Activation} (h : Dispatchable t s)
    (hr : runSections fs (enterTask t s) = .next s1) (hh : s1.halted = false) (hs : s1.stack = a :: s.stack)
    (ha : a.saved = s.curPrio) : taskStep t fs s = .next { s1 with curPrio := s.curPrio, stack := s.stack } := by
  rw [taskStep_whole h.whole, wholeRun_of h, hr, andThen_next, if_neg (by simp [hh]), leaveTask_cons hs, ha]

/-- A dispatched run whose sections halt ends there. -/
theorem taskStep_halt {t : Irq} {fs : List (State → Result)} {s s1 : State} (h : Dispatchable t s)
    (hr : runSections fs (enterTask t s) = .next s1) (hh : s1.halted = true) : taskStep t fs s = .next s1 := by
  rw [taskStep_whole h.whole, wholeRun_of h, hr, andThen_next, if_pos hh]

/-- `RXC` section 3 on an idle pipeline. -/
theorem takeFrame_idle {s : State} {p : List Byte} (hb : s.busy = false) (ho : s.ownerRx = .cpu)
    (hr : s.halted = false) (hp : s.bufRx.readRange 0 72 = some p) :
    takeFrame s = .next
      { s with
        bufRgb := s.bufRgb.writeRange 0 p
        busy := true
        pend := { s.pend with fstart := true } } := by
  have hl := readRange_length hp
  have ht : s.cpuMayTouch .rx = true := by simp [State.cpuMayTouch, ho]
  have hw : memWrite .rgb 0 p s = .next (s.setBuf .rgb (s.bufRgb.writeRange 0 p)) :=
    memWrite_ok rfl (by rw [hl]; decide)
  unfold takeFrame
  rw [hb, if_neg (by simp)]
  refine (memRead_ok (b := .rx) (n := Config.frameBytes) ht (by decide) hp).trans ?_
  rw [hw, andThen_next, setBuf_halted, if_neg (by simp [hr])]
  rfl

/-- `RXC` section 3 on a busy pipeline. -/
theorem takeFrame_busy {s : State} (hb : s.busy = true) : takeFrame s = .next s := by
  rw [takeFrame, hb]; rfl

/-- `FSTART` section 2. -/
theorem fillLedBuffer_ok {s : State} {p : List Byte} (ho : s.ownerTxled = .cpu)
    (hp : s.bufRgb.readRange 0 72 = some p) :
    fillLedBuffer s = .next { s with bufTxled := s.bufTxled.writeRange 0 (enc p) } := by
  have ht : s.cpuMayTouch .txled = true := by simp [State.cpuMayTouch, ho]
  refine (memRead_ok (b := .rgb) (n := Config.frameBytes) rfl (by decide) hp).trans ?_
  rw [memWrite_ok ht (by rw [enc_length]; decide)]
  rfl

/-- `TELE` section 1 where the last report has left, or there was none. -/
theorem reclaimReport_free {s : State}
    (h : s.ownerTxt = .cpu ∨ (s.chTel.done = true ∧ s.chTel.err = .none)) :
    reclaimReport s = .next { s with ownerTxt := .cpu } := by
  unfold reclaimReport
  by_cases ho : s.ownerTxt = .dma
  · rcases h with h | ⟨hd, he⟩
    · simp [ho] at h
    · rw [if_pos ho, hd, he, releaseOrRaise_done (b := .txt) (c := .tel) ho he hd]
      rfl
  · rw [if_neg ho]
    have : s.ownerTxt = .cpu := by cases h' : s.ownerTxt <;> simp_all
    rw [← this]

/-- `TELE` section 1 while the last report is leaving. -/
theorem reclaimReport_leaving {s : State} (ho : s.ownerTxt = .dma) (hd : s.chTel.done = false)
    (he : s.chTel.err = .none) : reclaimReport s = raiseFatal .submitBusy s := by
  simp [reclaimReport, ho, hd, he]

/-- `TELE` section 1 after a transfer error. -/
theorem reclaimReport_err {s : State} (ho : s.ownerTxt = .dma) (he : s.chTel.err ≠ .none) :
    reclaimReport s = raiseFatal (errCause s.chTel.err) { s with ownerTxt := .cpu } := by
  simp only [reclaimReport, ho, he, if_true, Bool.and_eq_true, beq_iff_eq, and_false, if_false]
  rw [releaseOrRaise_err (b := .txt) (c := .tel) ho he]; rfl

/-- `TELE` section 6. -/
theorem sendReport_ok {s : State} (ho : s.ownerTxt = .cpu) (hr : s.halted = false) :
    sendReport s = .next
      { s with
        bufTxt := s.bufTxt.writeRange 0 (ser s.localSnap)
        ownerTxt := .dma
        chTel := idleChannel } := by
  have ht : s.cpuMayTouch .txt = true := by simp [State.cpuMayTouch, ho]
  rw [sendReport, memWrite_ok ht (by simp [bufSize, Config.teleBytes, ser, le32, le16]), andThen_next,
    setBuf_halted, if_neg (by simp [hr]), submitOrRaise_cpu (by simpa using ho)]
  rfl

end Sys2Proof.Laws
end

