-- ==== Sys2Proof/Laws/Frames.lean ====
section
/-! SUPPORT. A relation between the states before and after that every part of an operation keeps, the operation keeps: one lemma per way of building operations. -/

namespace Sys2Proof.Laws

open Sys2Proof Sys2Proof.Machine

/-- Whenever `f` answers next from an unhalted state, the relation holds of before and after. -/
def Keeps (R : State → State → Prop) (f : State → Result) : Prop :=
  ∀ s s', s.halted = false → f s = .next s' → R s s'

/-! ## Where each storing operation stores -/

theorem storedTo_rxbyte (v : Byte) (s : State) (b : Buf) (a : Nat) :
    storedTo (.rxbyte v) s b a = (b == .rx && s.inFlight .rx .rx && a == s.chRx.cnt.toNat) := rfl

theorem storedTo_fPixel (x y z : Byte) (s : State) (b : Buf) (a : Nat) :
    storedTo (.fPixel x y z) s b a =
      (b == .rx && s.inFlight .rx .rx && decide (s.chRx.cnt.toNat ≤ a ∧ a < s.chRx.cnt.toNat + 3)) := rfl

theorem storedTo_rxc (s : State) (b : Buf) (a : Nat) :
    storedTo .rxc s b a = (b == .rgb && !s.busy && decide (a < 72)) := rfl

theorem storedTo_fstart (s : State) (b : Buf) (a : Nat) :
    storedTo .fstart s b a = (b == .txled && decide (a < 577)) := rfl

theorem storedTo_tele (s : State) (b : Buf) (a : Nat) :
    storedTo .tele s b a = (b == .txt && decide (a < 13)) := rfl

/-! ## The frame rules -/

variable {R : State → State → Prop}

theorem keeps_next {g : State → State} (h : ∀ s, R s (g s)) : Keeps R fun s => .next (g s) := by
  rintro s _ _ ⟨⟩; exact h s

theorem keeps_refused (q : State → Refusal) : Keeps R fun s => .refused (q s) := by rintro s _ _ ⟨⟩

/-- Two lines in order. -/
theorem keeps_andThen (trans : ∀ a b c, R a b → R b c → R a c) {f k : State → Result} (hf : Keeps R f)
    (hk : Keeps R k) : Keeps R fun s => andThen (f s) k := by
  intro s s' hr h
  obtain ⟨s1, h1, ⟨_, rfl⟩ | ⟨hr1, h2⟩⟩ := andThen_eq_next.1 h
  · exact hf _ _ hr h1
  · exact trans _ _ _ (hf _ _ hr h1) (hk _ _ hr1 h2)

/-- Sections in order. -/
theorem keeps_runSections (refl : ∀ s, R s s) (trans : ∀ a b c, R a b → R b c → R a c) {fs : List (State → Result)}
    (h : ∀ f ∈ fs, Keeps R f) : Keeps R (runSections fs) := by
  induction fs with
  | nil => exact keeps_next refl
  | cons f fs ih =>
    exact keeps_andThen (R := R) trans (h f (by simp)) (ih fun g hg => h g (by simp [hg]))

theorem keeps_leaveTask (refl : ∀ s, R s s) (book : ∀ s p st, R s { s with curPrio := p, stack := st }) :
    Keeps R leaveTask := by
  intro s s' hr h
  unfold leaveTask at h
  split at h <;> cases h
  · exact book s _ _
  · exact refl s

theorem keeps_nextSection (n : Nat) (refl : ∀ s, R s s) (book : ∀ s p st, R s { s with curPrio := p, stack := st }) :
    Keeps R (nextSection n) := by
  intro s s' hr h
  unfold nextSection at h
  split at h
  · split at h
    · cases h; exact book s s.curPrio _
    · exact keeps_leaveTask refl book s s' hr h
  · cases h; exact refl s

/-- A task run, whole or one section of it, keeps what its entry, its return and each of its sections keep. -/
theorem keeps_taskStep {t : Irq} {fs : List (State → Result)} (refl : ∀ s, R s s)
    (trans : ∀ a b c, R a b → R b c → R a c) (enter : ∀ s, R s (enterTask t s))
    (book : ∀ s p st, R s { s with curPrio := p, stack := st }) (h : ∀ f ∈ fs, Keeps R f) :
    Keeps R (taskStep t fs) := by
  intro s s' hr hs
  unfold taskStep at hs
  split at hs
  · unfold oneSection at hs
    split at hs
    · cases hs
    split at hs
    · split at hs
      · cases hs
      · exact keeps_andThen (R := R) trans
          (keeps_runSections refl trans fun f hf => h f (List.mem_of_mem_drop (List.mem_of_mem_take hf)))
          (keeps_nextSection _ refl book) s s' hr hs
    · obtain ⟨_, hs⟩ := whenDispatchable_eq_next.1 hs
      exact trans _ _ _ (enter s) (keeps_andThen (R := R) trans
        (keeps_runSections refl trans fun f hf => h f (List.mem_of_mem_take hf))
        (keeps_nextSection _ refl book) _ s' hr hs)
  · obtain ⟨_, hs⟩ := whenDispatchable_eq_next.1 hs
    exact trans _ _ _ (enter s)
      (keeps_andThen (R := R) trans (keeps_runSections refl trans h) (keeps_leaveTask refl book) _ s' hr hs)

theorem keeps_raiseFatal (halt : ∀ s c, R s { s with halted := true, cause := c, stack := [] }) (c : Cause) :
    Keeps R (raiseFatal c) := keeps_next fun s => halt s c

/-- `RELEASE` writes an ownership tag and may halt. -/
theorem keeps_releaseOrRaise (trans : ∀ a b c, R a b → R b c → R a c)
    (halt : ∀ s c, R s { s with halted := true, cause := c, stack := [] }) {b : DmaBuf} (c : Channel)
    (own : ∀ s, R s (s.setOwner b .cpu)) : Keeps R (releaseOrRaise b c) := by
  intro s s' hr h
  cases ho : s.owner b
  · rw [releaseOrRaise_incomplete (.inl ho)] at h; cases h; exact halt s _
  · by_cases he : s.chanErr c = .none
    · cases hd : s.chanDone c
      · rw [releaseOrRaise_incomplete (.inr ⟨he, hd⟩)] at h; cases h; exact halt s _
      · rw [releaseOrRaise_done ho he hd] at h; cases h; exact own s
    · rw [releaseOrRaise_err ho he] at h; cases h; exact trans _ _ _ (own s) (halt _ _)

/-- `SUBMIT` writes an ownership tag and a channel, or halts. -/
theorem keeps_submitOrRaise (halt : ∀ s c, R s { s with halted := true, cause := c, stack := [] }) {b : DmaBuf}
    {c : Channel} (own : ∀ s, R s ((s.setOwner b .dma).restart c)) : Keeps R (submitOrRaise b c) := by
  intro s s' hr h
  cases ho : s.owner b
  · rw [submitOrRaise_cpu ho] at h; cases h; exact own s
  · rw [submitOrRaise_dma ho] at h; cases h; exact halt s _

/-- A CPU-side write stores its bytes or halts. -/
theorem keeps_memWrite (halt : ∀ s c, R s { s with halted := true, cause := c, stack := [] }) {b : Buf} {i : Nat}
    {vs : List Byte} (store : ∀ s, R s (s.setBuf b ((s.buf b).writeRange i vs))) : Keeps R (memWrite b i vs) := by
  intro s s' hr h
  unfold memWrite at h
  split at h
  · cases h; exact halt s _
  split at h
  · cases h
  · cases h; exact store s

/-- A CPU-side read changes nothing before it hands its bytes on, or halts. -/
theorem keeps_memRead (halt : ∀ s c, R s { s with halted := true, cause := c, stack := [] }) {b : Buf} {i n : Nat}
    {k : List Byte → State → Result} (hk : ∀ vs, vs.length = n → Keeps R (k vs)) :
    Keeps R fun s => memRead b i n s fun vs => k vs s := by
  intro s s' hr h
  replace h : memRead b i n s (fun vs => k vs s) = .next s' := h
  unfold memRead at h
  split at h
  · cases h; exact halt s _
  split at h
  · cases h
  split at h
  · rename_i vs hv; exact hk vs (readRange_length hv) s s' hr h
  · cases h

/-! ## The sections of the tasks -/

/-- `RXC` section 3 stores 72 bytes in the working array of an idle pipeline, or halts. -/
theorem keeps_takeFrame (refl : ∀ s, R s s) (halt : ∀ s c, R s { s with halted := true, cause := c, stack := [] })
    (store : ∀ s p, s.busy = false → p.length = 72 →
      R s { s with bufRgb := s.bufRgb.writeRange 0 p, busy := true, pend := { s.pend with fstart := true } }) :
    Keeps R takeFrame := by
  intro s s' hr h
  by_cases hb : s.busy = true
  · rw [takeFrame_busy hb] at h; cases h; exact refl s
  have hb : s.busy = false := by simpa using hb
  by_cases ho : s.ownerRx = .cpu
  · cases hp : s.bufRx.readRange 0 72 with
    | some p =>
      rw [takeFrame_idle hb ho hr hp] at h
      cases h
      exact store s p hb (readRange_length hp)
    | none =>
      simp [takeFrame, hb, memRead, State.cpuMayTouch, ho, bufSize, Config.frameBytes, State.buf, hp] at h
  · simp [takeFrame, hb, memRead, State.cpuMayTouch, ho] at h
    cases h
    exact halt s _

/-- `FSTART` section 2 stores 577 bytes in the LED buffer, or halts. -/
theorem keeps_fillLedBuffer (halt : ∀ s c, R s { s with halted := true, cause := c, stack := [] })
    (store : ∀ s p, p.length = 577 → R s { s with bufTxled := s.bufTxled.writeRange 0 p }) :
    Keeps R fillLedBuffer :=
  keeps_memRead halt fun p _ => keeps_memWrite halt fun s => store s (enc p) (enc_length p)

/-- `TELE` section 1 takes the report buffer back, or halts. -/
theorem keeps_reclaimReport (refl : ∀ s, R s s) (trans : ∀ a b c, R a b → R b c → R a c)
    (halt : ∀ s c, R s { s with halted := true, cause := c, stack := [] })
    (own : ∀ s, R s (s.setOwner .txt .cpu)) : Keeps R reclaimReport := by
  intro s s' hr h
  unfold reclaimReport at h
  split at h
  · split at h
    · cases h; exact halt s _
    · exact keeps_releaseOrRaise (R := R) trans halt .tel own s s' hr h
  · cases h; exact refl s

/-- `TELE` section 6 stores 13 bytes in the report buffer and submits it, or halts. -/
theorem keeps_sendReport (trans : ∀ a b c, R a b → R b c → R a c)
    (halt : ∀ s c, R s { s with halted := true, cause := c, stack := [] })
    (store : ∀ s p, p.length = 13 → R s { s with bufTxt := s.bufTxt.writeRange 0 p })
    (own : ∀ s, R s ((s.setOwner .txt .dma).restart .tel)) : Keeps R sendReport := by
  intro s s' hr h
  exact keeps_andThen (R := R) trans (f := memWrite .txt 0 (ser s.localSnap))
    (keeps_memWrite halt fun s' => store s' _ rfl) (keeps_submitOrRaise halt own) s s' hr h

/-! ## Calls and blocks -/

theorem keeps_callAccess (r : Resource) (ret : ∀ s v, R s (s.returning v)) : Keeps R (callAccess r) := by
  intro s s' hr h
  unfold callAccess at h
  split at h <;> cases h
  exact ret s _

theorem keeps_callSubmit (trans : ∀ a b c, R a b → R b c → R a c) (b : DmaBuf) (c : Channel)
    (ret : ∀ s v, R s (s.returning v)) (own : ∀ s, R s ((s.setOwner b .dma).restart c)) :
    Keeps R (callSubmit b c) := by
  intro s s' hr h
  cases ho : s.owner b
  · simp only [callSubmit, submit_cpu ho] at h
    cases h
    exact trans _ _ _ (own s) (ret _ _)
  · simp only [callSubmit, submit_dma ho] at h
    cases h
    exact ret s _

theorem keeps_callRelease (trans : ∀ a b c, R a b → R b c → R a c)
    (halt : ∀ s c, R s { s with halted := true, cause := c, stack := [] }) (b : DmaBuf) (c : Channel)
    (ret : ∀ s v, R s (s.returning v)) (own : ∀ s, R s (s.setOwner b .cpu)) : Keeps R (callRelease b c) := by
  intro s s' hr h
  unfold callRelease release at h
  by_cases ho : s.owner b = .cpu
  · rw [if_pos ho] at h; cases h; exact halt s _
  rw [if_neg ho] at h
  by_cases he : s.chanErr c = .none
  · rw [if_neg (by simpa using he)] at h
    cases hd : s.chanDone c
    · rw [hd] at h; cases h; exact halt s _
    · rw [hd] at h; cases h; exact trans _ _ _ (own s) (ret _ _)
  · rw [if_pos he] at h; cases h; exact trans _ _ _ (own s) (ret _ _)

theorem keeps_atomicSection (trans : ∀ a b c, R a b → R b c → R a c) (book : ∀ s p, R s { s with curPrio := p })
    (r : Resource) {body : State → Result} (hb : Keeps R body) : Keeps R (atomicSection r body) := by
  intro s s' hr h
  obtain ⟨s1, h1, h2⟩ := andThen_eq_next.1 h
  have h3 := trans _ _ _ (book s (max s.curPrio (ceiling r))) (hb _ s1 hr h1)
  rcases h2 with ⟨_, rfl⟩ | ⟨_, h2⟩
  · exact h3
  · cases h2
    exact trans _ _ _ h3 (book s1 _)

/-- A block keeps what its primitives keep. -/
theorem keeps_runBlock (refl : ∀ s, R s s) (trans : ∀ a b c, R a b → R b c → R a c)
    (halt : ∀ s c, R s { s with halted := true, cause := c, stack := [] }) (book : ∀ s p, R s { s with curPrio := p })
    (ret : ∀ s v, R s (s.returning v)) (own : ∀ s b o, R s (s.setOwner b o))
    (chan : ∀ s c f, R s (s.updChan c f)) (req : ∀ s t, R s (s.request t)) (pass : ∀ s d, R s (s.passCycles d))
    (b : Block) : Keeps R (runBlock b) := by
  induction b with
  | done => exact keeps_next refl
  | access r k ih => exact keeps_andThen (R := R) trans (keeps_callAccess r ret) ih
  | atomic r b k ihb ih => exact keeps_andThen (R := R) trans (keeps_atomicSection trans book r ihb) ih
  | submit b c k ih =>
    exact keeps_andThen (R := R) trans
      (keeps_callSubmit trans b c ret fun s => trans _ _ _ (own s _ _) (chan _ _ _)) ih
  | release b c k ih =>
    exact keeps_andThen (R := R) trans (keeps_callRelease trans halt b c ret fun s => own s _ _) ih
  | pend t k ih => exact keeps_andThen (R := R) trans (keeps_next fun s => req s t) ih
  | wfi d k ih => exact keeps_andThen (R := R) trans (keeps_next fun s => pass s d) ih
  | halt c k ih => exact keeps_andThen (R := R) trans (keeps_next fun s => halt s c) ih

/-- What runs only unhalted keeps what its body keeps. -/
theorem keeps_whenRunning {f : State → Result} (h : Keeps R f) {s s' : State} (e : whenRunning s (f s) = .next s') :
    R s s' := by
  obtain ⟨hr, e⟩ := whenRunning_eq_next.1 e
  exact h s s' hr e

end Sys2Proof.Laws
end

