-- ==== Sys2Proof/Laws/PerInstr.lean ====
section
/-! SUPPORT. The laws stated per instruction, one lemma per constructor. Family `ClassBits`: the class field of an operation's id byte is its class, and an item of a data stream has none (30_encoding.md R100, R101, R102). -/

namespace Sys2Proof.Laws

/-- The class that `op[4:3]` of an id names (30_encoding.md R100). -/
def classOfId (id : Nat) : OpClass :=
  match id / 8 with
  | 0 => .task
  | 1 => .prim
  | 2 => .hw
  | _ => .func

/-- An operation's bytes begin with an id below 32 whose class field is its class, the five reserved ids apart; a data
item has no id. -/
def ClassBits.Statement (i : Instr) : Prop :=
  i.cls = .data ∨
    ∃ id operands, encode i = id :: operands ∧ id.toNat < 32 ∧
      (i.cls = .reserved ∨ i.cls = classOfId id.toNat)

theorem ClassBits.idle (d : U32) : ClassBits.Statement (.idle d) := .inr ⟨_, _, rfl, by decide, .inr rfl⟩
theorem ClassBits.tele : ClassBits.Statement .tele := .inr ⟨_, _, rfl, by decide, .inr rfl⟩
theorem ClassBits.rxc : ClassBits.Statement .rxc := .inr ⟨_, _, rfl, by decide, .inr rfl⟩
theorem ClassBits.fstart : ClassBits.Statement .fstart := .inr ⟨_, _, rfl, by decide, .inr rfl⟩
theorem ClassBits.ledc : ClassBits.Statement .ledc := .inr ⟨_, _, rfl, by decide, .inr rfl⟩
theorem ClassBits.latch : ClassBits.Statement .latch := .inr ⟨_, _, rfl, by decide, .inr rfl⟩
theorem ClassBits.access (r : Resource) : ClassBits.Statement (.access r) := .inr ⟨_, _, rfl, by decide, .inr rfl⟩
theorem ClassBits.atomic (r : Resource) (body : Block) : ClassBits.Statement (.atomic r body) := .inr ⟨_, _, rfl, by decide, .inr rfl⟩
theorem ClassBits.submit (b : DmaBuf) (c : Channel) : ClassBits.Statement (.submit b c) := .inr ⟨_, _, rfl, by decide, .inr rfl⟩
theorem ClassBits.release (b : DmaBuf) (c : Channel) : ClassBits.Statement (.release b c) := .inr ⟨_, _, rfl, by decide, .inr rfl⟩
theorem ClassBits.pend (t : Irq) : ClassBits.Statement (.pend t) := .inr ⟨_, _, rfl, by decide, .inr rfl⟩
theorem ClassBits.wfi (d : U32) : ClassBits.Statement (.wfi d) := .inr ⟨_, _, rfl, by decide, .inr rfl⟩
theorem ClassBits.halt (c : Cause) : ClassBits.Statement (.halt c) := .inr ⟨_, _, rfl, by decide, .inr rfl⟩
theorem ClassBits.reset (c0 : U32) : ClassBits.Statement (.reset c0) := .inr ⟨_, _, rfl, by decide, .inr rfl⟩
theorem ClassBits.rxbyte (b : Byte) : ClassBits.Statement (.rxbyte b) := .inr ⟨_, _, rfl, by decide, .inr rfl⟩
theorem ClassBits.ledcell : ClassBits.Statement .ledcell := .inr ⟨_, _, rfl, by decide, .inr rfl⟩
theorem ClassBits.telbyte : ClassBits.Statement .telbyte := .inr ⟨_, _, rfl, by decide, .inr rfl⟩
theorem ClassBits.latchexp : ClassBits.Statement .latchexp := .inr ⟨_, _, rfl, by decide, .inr rfl⟩
theorem ClassBits.teltick : ClassBits.Statement .teltick := .inr ⟨_, _, rfl, by decide, .inr rfl⟩
theorem ClassBits.cycadv (n : U32) : ClassBits.Statement (.cycadv n) := .inr ⟨_, _, rfl, by decide, .inr rfl⟩
theorem ClassBits.xfererr (ch : Channel) (kind : XferErr) : ClassBits.Statement (.xfererr ch kind) := .inr ⟨_, _, rfl, by decide, .inr rfl⟩
theorem ClassBits.enc (p : List Byte) : ClassBits.Statement (.enc p) := .inr ⟨_, _, rfl, by decide, .inr rfl⟩
theorem ClassBits.cell (b : Bool) : ClassBits.Statement (.cell b) := .inr ⟨_, _, rfl, by decide, .inr rfl⟩
theorem ClassBits.ser (x : Snapshot) : ClassBits.Statement (.ser x) := .inr ⟨_, _, rfl, by decide, .inr rfl⟩
theorem ClassBits.des (q : List Byte) : ClassBits.Statement (.des q) := .inr ⟨_, _, rfl, by decide, .inr rfl⟩
theorem ClassBits.dec (z : List Byte) : ClassBits.Statement (.dec z) := .inr ⟨_, _, rfl, by decide, .inr rfl⟩
theorem ClassBits.util (x y : Snapshot) : ClassBits.Statement (.util x y) := .inr ⟨_, _, rfl, by decide, .inr rfl⟩
theorem ClassBits.reserved06 : ClassBits.Statement .reserved06 := .inr ⟨_, _, rfl, by decide, .inl rfl⟩
theorem ClassBits.reserved07 : ClassBits.Statement .reserved07 := .inr ⟨_, _, rfl, by decide, .inl rfl⟩
theorem ClassBits.reserved0F : ClassBits.Statement .reserved0F := .inr ⟨_, _, rfl, by decide, .inl rfl⟩
theorem ClassBits.reserved1E : ClassBits.Statement .reserved1E := .inr ⟨_, _, rfl, by decide, .inl rfl⟩
theorem ClassBits.reserved1F : ClassBits.Statement .reserved1F := .inr ⟨_, _, rfl, by decide, .inl rfl⟩
theorem ClassBits.fPixel (r g b : Byte) : ClassBits.Statement (.fPixel r g b) := .inl rfl
theorem ClassBits.fCell0 : ClassBits.Statement .fCell0 := .inl rfl
theorem ClassBits.fCell1 : ClassBits.Statement .fCell1 := .inl rfl
theorem ClassBits.fCellRst : ClassBits.Statement .fCellRst := .inl rfl
theorem ClassBits.fTel (x : Snapshot) : ClassBits.Statement (.fTel x) := .inl rfl
theorem ClassBits.fLedGroup (g r b : Byte) : ClassBits.Statement (.fLedGroup g r b) := .inl rfl

end Sys2Proof.Laws
end

