-- ==== Sys2Proof/Laws/Step.lean ====
section
/-! SUPPORT. What the fetch can answer, and what a step of a machine without waiting calls did (log 1, log 2). -/

namespace Sys2Proof.Laws

open Sys2Proof Sys2Proof.Machine

/-- With no call waiting, the fetch takes the operation decoded at the front of the trace. -/
theorem fetch_eq_ok {s s1 : State} {i : Instr} (hc : s.calls = []) :
    fetch s = .ok (i, s1) ↔
      ∃ rest, decodeOp s.trace = .ok (i, rest) ∧ (i.mayStandInTrace = true ∨ i.cls = .reserved) ∧
        s1 = { s with trace := rest } := by
  unfold fetch
  rw [hc]
  cases ht : s.trace with
  | nil => simp [decodeOp]
  | cons b bs =>
    dsimp only
    cases hd : decodeOp (b :: bs) with
    | error e => simp
    | ok x =>
      obtain ⟨j, rest⟩ := x
      have hn := decodeOp_not_data hd
      dsimp only
      constructor
      · intro h
        split at h
        · cases h
        · rename_i hp
          cases h
          refine ⟨rest, rfl, ?_, rfl⟩
          cases i <;> simp_all [Instr.mayStandInTrace, Instr.cls]
      · rintro ⟨_, ⟨⟩, hi, rfl⟩
        rw [if_neg]
        cases i <;> simp_all [Instr.mayStandInTrace, Instr.cls]

/-- A step that answers next ran a trace step decoded at the front of the trace. -/
theorem step_eq_next {s s' : State} (hc : s.calls = []) (h : step s = .next s') :
    ∃ i rest, decodeOp s.trace = .ok (i, rest) ∧ (i.mayStandInTrace = true ∨ i.cls = .reserved) ∧
      exec i { s with trace := rest } = .next s' := by
  unfold step at h
  split at h
  · rename_i i s1 hf
    obtain ⟨rest, hd, hi, rfl⟩ := (fetch_eq_ok hc).1 hf
    exact ⟨i, rest, hd, hi, h⟩
  · cases h

/-- A step that faults is an operation that faults. -/
theorem step_eq_fault {s : State} {f : Fault} (hc : s.calls = []) (h : step s = .fault f) :
    ∃ i rest, decodeOp s.trace = .ok (i, rest) ∧ (i.mayStandInTrace = true ∨ i.cls = .reserved) ∧
      exec i { s with trace := rest } = .fault f := by
  unfold step at h
  split at h
  · rename_i i s1 hf
    obtain ⟨rest, hd, hi, rfl⟩ := (fetch_eq_ok hc).1 hf
    exact ⟨i, rest, hd, hi, h⟩
  · cases h

end Sys2Proof.Laws
end

