-- ==== Sys2Proof/Tests/Slice0.lean ====
section
/-! SUPPORT. Tests. Expected values come from spec/95_test_vectors.md (ids V, B, T, K, U, W, M, P) and from the encodings of spec/30_encoding.md. Every theorem named `witness_` shows that the hypotheses of one obligation can be met together. -/

namespace Sys2Proof.Tests

open Sys2Proof.Machine Sys2Proof.Laws

/-! ## Well-formedness: one ill-formed term for each check -/

theorem test_wf_submit : (Instr.submit .rx .led).wf = false := by decide
theorem test_wf_release : (Instr.release .txt .led).wf = false := by decide
theorem test_wf_halt : (Instr.halt .none).wf = false := by decide
theorem test_wf_kind_off_rx : (Instr.xfererr .led .overrun).wf = false := by decide
theorem test_wf_kind_none : (Instr.xfererr .rx .none).wf = false := by decide
theorem test_wf_enc : (Instr.enc (List.replicate 71 0)).wf = false := by decide
theorem test_wf_des : (Instr.des (List.replicate 12 0)).wf = false := by decide
theorem test_wf_dec (z : List Byte) (h : 4294967296 ≤ z.length) : (Instr.dec z).wf = false := by
  simp only [Instr.wf, decide_eq_false_iff_not]; omega
theorem test_wf_block : (Instr.atomic .rx (.submit .rx .tel .done)).wf = false ∧
    (Instr.atomic .rx (.release .txled .rx .done)).wf = false ∧
    (Instr.atomic .rx (.pend .rxc (.halt .none .done))).wf = false ∧
    (Instr.atomic .rx (.atomic .txt (.halt .none .done) .done)).wf = false := by decide

/-! ## Decoding: words written out from 30_encoding.md R101, R102, R107, R91 to R97 -/

theorem test_decode_task :
    decodeOp [0x00, 0x2C, 0x01, 0x00, 0x00] = .ok (.idle 0x12C, []) ∧
    decodeOp [0x01] = .ok (.tele, []) ∧ decodeOp [0x02] = .ok (.rxc, []) ∧
    decodeOp [0x03] = .ok (.fstart, []) ∧ decodeOp [0x04] = .ok (.ledc, []) ∧
    decodeOp [0x05] = .ok (.latch, []) := by decide

theorem test_decode_prim :
    decodeOp [0x08, 0x08] = .ok (.access .latchTimer, []) ∧
    decodeOp [0x09, 0x00, 0x0C, 0x01, 0x0D, 0x05, 0x00, 0x00, 0x00, 0x00, 0x77] =
      .ok (.atomic .busy (.pend .fstart (.wfi 5 .done)), [0x77]) ∧
    decodeOp [0x0A, 0x01, 0x01] = .ok (.submit .txled .led, []) ∧
    decodeOp [0x0B, 0x02, 0x02] = .ok (.release .txt .tel, []) ∧
    decodeOp [0x0C, 0x04] = .ok (.pend .tele, []) ∧
    decodeOp [0x0D, 0x00, 0x00, 0x00, 0x80] = .ok (.wfi 0x80000000, []) ∧
    decodeOp [0x0E, 0x07] = .ok (.halt .timer, []) := by decide

theorem test_decode_hw :
    decodeOp [0x10, 0x78, 0x56, 0x34, 0x12] = .ok (.reset 0x12345678, []) ∧
    decodeOp [0x11, 0x99] = .ok (.rxbyte 0x99, []) ∧ decodeOp [0x12] = .ok (.ledcell, []) ∧
    decodeOp [0x13] = .ok (.telbyte, []) ∧ decodeOp [0x14] = .ok (.latchexp, []) ∧
    decodeOp [0x15] = .ok (.teltick, []) ∧
    decodeOp [0x16, 0x00, 0x10, 0x00, 0x00] = .ok (.cycadv 0x1000, []) ∧
    decodeOp [0x17, 0x00, 0x02] = .ok (.xfererr .rx .framing, []) := by decide

theorem test_decode_func :
    decodeOp (0x18 :: List.replicate 72 0x11) = .ok (.enc (List.replicate 72 0x11), []) ∧
    decodeOp [0x19, 0x01] = .ok (.cell true, []) ∧
    decodeOp [0x1A, 0x40, 0x42, 0x0F, 0x00, 0x84, 0x03, 0x00, 0x00, 0x05, 0x00, 0x03] =
      .ok (.ser { cycleCounter := 1000000, sleepCycles := 900, contextSwitches := 5, frames := 3 }, []) ∧
    decodeOp (0x1B :: List.replicate 11 0xFF) = .ok (.des (List.replicate 11 0xFF), []) ∧
    decodeOp [0x1C, 0x02, 0x00, 0x00, 0x00, 0xAA, 0x55] = .ok (.dec [0xAA, 0x55], []) ∧
    decodeOp (0x1D :: List.replicate 22 0) = .ok (.util zeroSnapshot zeroSnapshot, []) := by decide

theorem test_decode_reserved :
    decodeOp [0x06] = .ok (.reserved06, []) ∧ decodeOp [0x07] = .ok (.reserved07, []) ∧
    decodeOp [0x0F] = .ok (.reserved0F, []) ∧ decodeOp [0x1E] = .ok (.reserved1E, []) ∧
    decodeOp [0x1F] = .ok (.reserved1F, []) ∧ decodeOp [0x20] = .error (.unknownId 0x20) ∧
    decodeOp [0x17, 0x01, 0x01] = .error .kindNotOfChannel ∧ decodeOp [0x0E, 0x00] = .error .badCause ∧
    decodeOp [0x0A, 0x00, 0x01] = .error .wrongChannel := by decide

theorem test_decode_pixel : decodePort .pixels [0xFF, 0x01, 0x02] = .ok (.fPixel 0xFF 0x01 0x02, []) := by decide

theorem test_decode_report :
    decodePort .report [0xAA, 0x00, 0x00, 0x00, 0x80, 0x01, 0x00, 0x00, 0x00, 0x00, 0x80, 0x80, 0x55] =
      .ok (.fTel { cycleCounter := 0x80000000, sleepCycles := 1, contextSwitches := 0x8000, frames := 0x80 }, []) ∧
    decodePort .report (List.replicate 13 0xAA) = .error .badSync := by decide

theorem test_decode_cells :
    decodePort .cells [Config.dutyShort] = .ok (.fCell0, []) ∧
    decodePort .cells [Config.dutyLong] = .ok (.fCell1, []) ∧
    decodePort .cells [0x00] = .ok (.fCellRst, []) := by
  have hs : Config.dutyShort ≠ 0#8 := dutyShort_ne_zero
  have hl : Config.dutyLong ≠ 0#8 := dutyLong_ne_zero
  simp [decodePort, cellBit, Config.dutyReset, hs, hl, dutyShort_ne_dutyLong]

/-- V3's first LED: green 01, red 80, blue FF. -/
theorem test_decode_led_group :
    decodePort .ledGroup
      (List.replicate 7 Config.dutyShort ++ [Config.dutyLong, Config.dutyLong] ++
        List.replicate 7 Config.dutyShort ++ List.replicate 8 Config.dutyLong) =
      .ok (.fLedGroup 0x01 0x80 0xFF, []) := by
  simp [decodePort, after, readBytes, List.replicate, cellBits, cellBit, dutyShort_ne_dutyLong, ofMsbBits]

/-- The opcode table's numbering: bit 0 is the least significant bit of the first byte. -/
theorem test_table_words :
    decodeTableWord 8 0x02 = some .rxc ∧ decodeTableWord 40 0x2C00 = some (.idle 0x2C) ∧
    decodeTableWord 24 0x030117 = some (.xfererr .led .dmaErr) ∧
    decodeTableWord 24 0x030201 = some (.fPixel 0x01 0x02 0x03) ∧ decodeTableWord 8 0x00 = some .fCellRst ∧
    decodeTableWord 8 0x1F = some .reserved1F ∧ decodeTableWord 8 0xFF = none := by decide

/-! ## Small states -/

/-- After reset, with a known counter. -/
def at0 : State := { State.reset with cycleCounter := 0 }

/-- With only `t` pending, at the least running priority, below every interrupt task's whatever `PRIO` is. -/
def waiting (t : Irq) (s : State) : State := { s with pend := noPending.set t true, curPrio := 0 }

/-- After reset but for that. -/
def pending (t : Irq) : State := waiting t at0

/-- A field of the next state. -/
def got {α : Type} (r : Result) (f : State → α) : Option α :=
  match r with
  | .next s => some (f s)
  | .fault _ => none
  | .refused _ => none

/-- 72 bytes: three and then zeros. -/
def frame (r g b : Byte) : List Byte := r :: g :: b :: List.replicate 69 0

/-- A refresh of `p` in flight with `n` cells sent. -/
def refreshing (p : List Byte) (n : Nat) : State :=
  { at0 with
    busy := true, bufRgb := Memory.writeRange [] 0 p, bufTxled := Memory.writeRange [] 0 (enc p),
    ownerTxled := .dma, chLed := { cnt := n, done := false, err := .none } }

/-- A report of `x` in flight with `n` bytes sent. -/
def reporting (x : Snapshot) (n : Nat) : State :=
  { at0 with
    bufTxt := Memory.writeRange [] 0 (ser x), ownerTxt := .dma,
    chTel := { cnt := n, done := false, err := .none } }

/-- A frame received and its interrupt pending. -/
def received (p : List Byte) : State :=
  { pending .rxc with
    bufRx := Memory.writeRange [] 0 p, chRx := { cnt := 72, done := true, err := .none } }

/-- The latch timer running, the pipeline busy. -/
def latching : State :=
  { at0 with busy := true, latchRunning := true, bufRgb := Memory.writeRange [] 0 (List.replicate 72 1) }

/-- T3's snapshot. -/
def snapT3 : Snapshot :=
  { cycleCounter := 0x12345678, sleepCycles := 1000, contextSwitches := 0x0102, frames := 7 }

/-! ## One step each -/

/-- W3. -/
theorem test_idle_sleep : got (exec (.idle 2) { at0 with sleepCycles := 0xFFFFFFFF, cycleCounter := 10 })
    (fun s => (s.sleepCycles, s.cycleCounter)) = some (1, 12) := by rfl
/-- W4. -/
theorem test_idle_wrap : got (exec (.idle 0x20) { at0 with cycleCounter := 0xFFFFFFF0 })
    (fun s => (s.sleepCycles, s.cycleCounter)) = some (0x20, 0x10) := by rfl
/-- M9. -/
theorem test_idle_not_enabled : exec (.idle 5) (pending .tele) = .refused .taskPending := by rfl
/-- W6. -/
theorem test_tele_report : got (exec .tele { pending .tele with
      contextSwitches := 0xFFFF, frames := 0xFF, sleepCycles := 0xFFFFFFFF, cycleCounter := 0xFFFFFFFF })
    (fun s => (s.bufTxt.readRange 0 13, s.contextSwitches, s.frames, s.sleepCycles, s.cycleCounter, s.ownerTxt)) =
    some (some (0xAA :: List.replicate 11 0xFF ++ [0x55]), 0, 0, 0, 0xFFFFFFFF, .dma) := by rfl
/-- P6. -/
theorem test_tele_busy : got (exec .tele (waiting .tele (reporting zeroSnapshot 5)))
    (fun s => (s.halted, s.cause, s.chTel.cnt)) = some (true, .submitBusy, 5) := by rfl
/-- W1. -/
theorem test_rxc_drop_wraps : got (exec .rxc { received (frame 1 2 3) with busy := true, contextSwitches := 0xFFFF })
    (fun s => (s.contextSwitches, s.bufRgb, s.halted, s.chRx.cnt)) = some (0, [], false, 0) := by rfl
/-- P5. -/
theorem test_rxc_overrun : got (exec .rxc { received (frame 1 1 1) with chRx := { cnt := 72, done := true, err := .overrun } })
    (fun s => (s.halted, s.cause, s.ownerRx, s.busy)) = some (true, .overrun, .cpu, false) := by rfl
/-- P4. -/
theorem test_ledc_dmaerr : got (exec .ledc { waiting .ledc (refreshing (frame 0 1 2) 100) with
      contextSwitches := 2, chLed := { cnt := 100, done := false, err := .dmaErr } })
    (fun s => (s.contextSwitches, s.cause, s.latchRunning, s.ownerTxled)) = some (3, .dmaErr, false, .cpu) := by rfl
/-- Nothing has been written to `RGB` since reset (10_state.md R29). -/
theorem test_fstart_unwritten : exec .fstart (pending .fstart) = .fault (.readNoValue .rgb 0) := by rfl
/-- W2. -/
theorem test_latch_wraps : got (exec .latch { waiting .latch latching with frames := 0xFF, latchExpired := true })
    (fun s => (s.frames, s.busy, s.latchRunning)) = some (0, false, false) := by rfl
/-- M11. -/
theorem test_latchexp_once : exec .latchexp { latching with latchExpired := true } = .refused .timerNotArmed := by rfl
/-- M10. -/
theorem test_teltick_merges : exec .teltick (pending .tele) = .next (pending .tele) := by rfl
/-- W5. -/
theorem test_cycadv_wraps : got (exec (.cycadv 1) { at0 with cycleCounter := 0xFFFFFFFF }) (·.cycleCounter) =
    some 0 := by rfl
/-- M5. -/
theorem test_rxbyte_last : got (exec (.rxbyte 0x10) { at0 with chRx := { cnt := 71, done := false, err := .none } })
    (fun s => (s.bufRx, s.chRx.cnt, s.chRx.done, s.pend.rxc)) = some ([(71, 0x10)], 72, true, true) := by rfl
/-- M6. -/
theorem test_rxbyte_overrun : got (exec (.rxbyte 0x99) (received (List.replicate 72 1)))
    (fun s => (s.chRx.err, s.pend.rxc, s.bufRx.readRange 70 2)) = some (.overrun, true, some [1, 1]) := by rfl
/-- M7. -/
theorem test_ledcell_last : got (exec .ledcell { at0 with
      ownerTxled := .dma, bufTxled := [(576, 0)], chLed := { cnt := 576, done := false, err := .none }, dutyReg := 9 })
    (fun s => (s.ledOut, s.dutyReg, s.chLed.cnt, s.chLed.done, s.pend.ledc)) =
    some ([.cell 0], 0, 577, true, true) := by rfl
/-- M8. -/
theorem test_ledcell_not_enabled : exec .ledcell at0 = .refused (.noTransfer .led) := by rfl
theorem test_telbyte_last : got (exec .telbyte (reporting snapT3 12))
    (fun s => (s.serTx, s.chTel, s.pend)) =
    some ([0x55], { cnt := 13, done := true, err := .none }, noPending) := by rfl
theorem test_xfererr_led : got (exec (.xfererr .led .dmaErr) (refreshing (frame 1 2 3) 100))
    (fun s => (s.chLed, s.pend.ledc)) = some ({ cnt := 100, done := false, err := .dmaErr }, true) := by rfl
theorem test_xfererr_tel : got (exec (.xfererr .tel .dmaErr) (reporting snapT3 3)) (fun s => (s.chTel.err, s.pend)) =
    some (.dmaErr, noPending) := by rfl
/-- M1. -/
theorem test_submit : got (exec (.submit .txled .led) { at0 with chLed := { cnt := 577, done := true, err := .none } })
    (fun s => (s.ret, s.ownerTxled, s.chLed)) = some (.ok, .dma, idleChannel) := by rfl
/-- M2. -/
theorem test_submit_busy : exec (.submit .txt .tel) (reporting snapT3 0) =
    .next { reporting snapT3 0 with ret := .errBusy } := by rfl
/-- M3. -/
theorem test_release : got (exec (.release .rx .rx) (received (frame 0 0 0))) (fun s => (s.ret, s.ownerRx)) =
    some (.ok, .cpu) := by rfl
/-- M4. -/
theorem test_release_error : got (exec (.release .rx .rx) { at0 with chRx := { cnt := 30, done := false, err := .framing } })
    (fun s => (s.ret, s.ownerRx)) = some (.errTransfer .framing, .cpu) := by rfl
theorem test_pend : got (exec (.pend .fstart) at0) (·.pend) = some { noPending with fstart := true } := by rfl
theorem test_wfi : got (exec (.wfi 3) { at0 with cycleCounter := 0xFFFFFFFF }) (·.cycleCounter) = some 2 := by rfl
/-- M12. -/
theorem test_halted : exec .teltick { at0 with halted := true } = .refused .machineHalted := by rfl
theorem test_atomic_busy_twice : got (exec (.atomic .txt (.submit .txt .tel (.submit .txt .tel .done))) at0)
    (fun s => (s.ownerTxt, s.ret, s.halted)) = some (.dma, .errBusy, false) := by rfl
theorem test_access_below : exec (.access .rx) { at0 with curPrio := 0 } = .refused (.belowCeiling .rx) := by rfl
theorem test_reset_survives_nothing : got (exec (.reset 7) { refreshing (frame 1 2 3) 9 with halted := true })
    (fun s => (s.cycleCounter, s.halted, s.bufRgb, s.ownerTxled, s.chLed)) =
    some (7, false, [], .cpu, idleChannel) := by rfl

/-! ## The encoder (V, B), the serializer (T), the decoder (K), the utilisation (U) -/

/-- V3. -/
theorem test_enc_v3 : (List.range 24).map (encCell (frame 0x80 0x01 0xFF)) =
    List.replicate 7 Config.dutyShort ++ [Config.dutyLong, Config.dutyLong] ++
      List.replicate 7 Config.dutyShort ++ List.replicate 8 Config.dutyLong := by rfl
/-- B5 to B8. -/
theorem test_enc_single_bits :
    encCell (List.replicate 71 0 ++ [0x01]) 575 = Config.dutyLong ∧
    encCell (List.replicate 70 0 ++ [0x80, 0]) 552 = Config.dutyLong ∧
    encCell (List.replicate 69 0 ++ [0x08, 0, 0]) 564 = Config.dutyLong ∧
    encCell (List.replicate 36 0 ++ [0x10] ++ List.replicate 35 0) 299 = Config.dutyLong := ⟨rfl, rfl, rfl, rfl⟩
/-- The walker's positions (95 part 2.1). -/
theorem test_walker :
    [0, 7, 8, 23, 24, 575, 576].map (fun n => walkerState (refreshing (frame 0 0 0) n)) =
      [.data 0 0 0, .data 0 0 7, .data 0 1 0, .data 0 2 7, .data 1 0 0, .data 23 2 7, .reset] := by decide
/-- T3. -/
theorem test_ser_t3 : ser snapT3 =
    [0xAA, 0x78, 0x56, 0x34, 0x12, 0xE8, 0x03, 0x00, 0x00, 0x02, 0x01, 0x07, 0x55] := by decide
/-- T5: sync values inside the payload are not escaped. -/
theorem test_des_t5 : des [0x55, 0xAA, 0x55, 0xAA, 0xAA, 0x55, 0xAA, 0x55, 0x55, 0xAA, 0x55] =
    some { cycleCounter := 0xAA55AA55, sleepCycles := 0x55AA55AA, contextSwitches := 0xAA55, frames := 0x55 } := by
  decide
/-- K1. -/
theorem test_dec_k1 : dec [0x00, 0xFF, 0xAA, 0x55, 0xAA, 0x01, 0x00, 0x00, 0x00, 0x02, 0x00, 0x00, 0x00, 0x03, 0x00,
      0x04, 0x55] =
    ([{ cycleCounter := 1, sleepCycles := 2, contextSwitches := 3, frames := 4 }], 17) := by decide
/-- K3: a false frame swallows the true one's first bytes. -/
theorem test_dec_k3 : dec (0xAA :: List.replicate 10 0 ++ [0xAA, 0x55] ++ List.replicate 10 0 ++ [0x55]) =
    ([{ cycleCounter := 0, sleepCycles := 0, contextSwitches := 0, frames := 0xAA }], 13) := by decide
/-- U2. -/
theorem test_util_u2 : (util { zeroSnapshot with cycleCounter := 0xFFFFFF00 }
      { zeroSnapshot with cycleCounter := 0x2E8, sleepCycles := 250 }) = some { num := 75000, den := 1000 } := by decide
/-- U5, U6. -/
theorem test_util_none : util { zeroSnapshot with cycleCounter := 7 } { zeroSnapshot with cycleCounter := 7 } = none ∧
    utilSeries [snapT3] = [none] := by decide
/-- U5: no step. -/
theorem test_util_no_step : exec (.util zeroSnapshot zeroSnapshot) at0 = .refused .noCounterAdvance := by rfl

/-! ## The fetch -/

theorem test_fetch_trace : got (step (State.reset.withFetchWord 8 0x15)) (fun s => (s.pend.tele, s.trace)) =
    some (true, []) := by rfl
theorem test_fetch_call : got (step (State.reset.withFetchWord 8 0x0C)) (fun s => (s.pend.rxc, s.calls)) =
    some (true, []) := by rfl
theorem test_fetch_end : step State.reset = .refused .endOfTrace := by rfl

/-! ## Witnesses: the hypotheses of each obligation, met together -/

theorem dispatchable_alone {t : Irq} {s : State} (hr : s.halted = false) (hp : s.pend = noPending.set t true)
    (hc : s.curPrio = 0) (hm : s.sectioned = false) : Dispatchable t s where
  running := hr
  pending := by rw [hp]; cases t <;> rfl
  unmasked := by rw [hc]; exact Nat.succ_pos _
  first := by
    intro u hu
    by_cases h : u = t
    · rw [h]
    · rw [hp, get_set, if_neg h, get_noPending] at hu
      cases hu
  whole := hm

theorem frame_length (r g b : Byte) : (frame r g b).length = 72 := rfl

theorem written_frame {p : List Byte} (h : p.length = 72) : (Memory.writeRange [] 0 p).readRange 0 72 = some p :=
  readRange_writeRange_of_length _ _ _ _ h

theorem written_enc (p : List Byte) : (Memory.writeRange [] 0 (enc p)).readRange 0 577 = some (enc p) :=
  readRange_writeRange_of_length _ _ _ _ (enc_length p)

theorem written_ser (x : Snapshot) : (Memory.writeRange [] 0 (ser x)).readRange 0 13 = some (ser x) :=
  readRange_writeRange_of_length _ _ _ _ rfl

theorem fresh_ok (vs : List Byte) (n : Nat) (h : vs.length ≤ n) :
    (Memory.writeRange [] 0 vs).wf ∧ (Memory.writeRange [] 0 vs).within n :=
  ⟨writeRange_wf _ _ _ List.Pairwise.nil, writeRange_within _ _ _ _ (by simp) (by omega)⟩

theorem fresh_written {vs : List Byte} {n : Nat} (h : vs.length = n) : writtenTo (Memory.writeRange [] 0 vs) n := by
  intro i hi
  rw [read_writeRange]
  simp [h, hi]

theorem witness_inv_idle : Inv at0 := by
  refine ⟨⟨?_, ?_, ?_, ?_⟩, ⟨rfl, rfl, rfl⟩, ?_, fun _ => ⟨?_, ?_, ?_, ?_, ?_, ?_⟩, fun _ => ⟨rfl, ?_, ?_, ?_, ?_, ?_, ?_, ?_, ?_⟩,
    fun _ => rfl, fun _ => rfl, ?_⟩
  all_goals simp [at0, State.reset, idleChannel, noPending, writtenTo, Config.frameBytes]

theorem witness_inv_latching : Inv latching := by
  refine ⟨⟨fresh_ok _ _ (by decide), ?_, ?_, ?_⟩, ⟨rfl, rfl, rfl⟩, ?_, fun _ => ⟨?_, ?_, ?_, ?_, ?_, ?_⟩,
    fun _ => ⟨rfl, ?_, ?_, ?_, ?_, fun _ => fresh_written rfl, ?_, ?_, ?_⟩, fun _ => rfl, fun _ => rfl, ?_⟩
  all_goals simp [latching, at0, State.reset, idleChannel, noPending, writtenTo, Config.frameBytes]

/-- A refresh is a state the invariant admits, at every cell. -/
theorem witness_inv_refreshing {p : List Byte} (hp : p.length = 72) {n : Nat} (hn : n < 577) : Inv (refreshing p n) := by
  refine ⟨⟨fresh_ok _ _ (by rw [hp]; decide), ?_, fresh_ok _ _ (by rw [enc_length]; decide), ?_⟩, ⟨rfl, rfl, rfl⟩, ?_,
    fun _ => ⟨?_, ?_, ?_, ?_, ?_, ?_⟩,
    fun _ => ⟨rfl, ?_, ?_, ?_, ?_, fun _ => fresh_written hp, fun _ => ⟨p, written_frame hp, written_enc p⟩, ?_, ?_⟩,
    fun _ => rfl, fun _ => rfl, ?_⟩
  all_goals simp [refreshing, at0, State.reset, idleChannel, noPending, writtenTo, Config.frameBytes, Config.ledBufBytes]
  all_goals omega

theorem witness_StepRunsTheDecodedTraceStep :
    at0.calls = [] ∧ decodeOp [0x02, 0x05] = .ok (.rxc, [0x05]) ∧ Instr.rxc.mayStandInTrace = true ∧
    decodeOp [0x06] = .ok (.reserved06, []) ∧ Instr.reserved06.cls = .reserved ∧
    decodeOp [0x0C, 0x00] = .ok (.pend .rxc, []) ∧ (Instr.pend .rxc).cls = .prim ∧
    decodeOp [0x19, 0x01] = .ok (.cell true, []) ∧ (Instr.cell true).cls = .func := by decide

theorem witness_StepRunsTheWaitingCall :
    decodePort .call [0x0C, 0x04] = .ok (.pend .tele, []) ∧ decodePort .pixels [1, 2, 3] = .ok (.fPixel 1 2 3, []) := by
  decide

theorem witness_IllegalOperationBytesAreRefused :
    0x20 ≤ (0x20 : Byte).toNat ∧ 0x20 ≤ (0xFF : Byte).toNat ∧ 2 < (3 : Byte).toNat ∧ (0 : Byte).toNat = 0 ∧
    3 < (4 : Byte).toNat ∧ ((1 : Byte) ≠ 0 ∧ (2 : Byte).toNat < 3) := by decide

theorem witness_DecodeOfEncodedOperation :
    (Instr.atomic .rx (.wfi 3 (.halt .timer .done))).wf = true ∧
    (Instr.atomic .rx (.wfi 3 (.halt .timer .done))).cls ≠ .data ∧
    (Instr.xfererr .rx .framing).wf = true ∧ (Instr.enc (List.replicate 72 7)).wf = true ∧
    (Instr.dec []).wf = true := by decide

theorem witness_DecodeOfEncodedItem :
    (Instr.fLedGroup 1 2 3).wf = true ∧ (Instr.fLedGroup 1 2 3).port = some .ledGroup ∧
    (Instr.submit .txt .tel).wf = true ∧ (Instr.submit .txt .tel).port = some .call := by decide

theorem witness_IdleAddsTheWait :
    IdleDispatchable at0 ∧ (pending .tele).halted = false ∧ (pending .tele).pend.get .tele = true :=
  ⟨⟨rfl, rfl, rfl⟩, rfl, rfl⟩

theorem witness_running : at0.halted = false ∧ (pending .tele).halted = false ∧ (pending .tele).pend.tele = true ∧
    { at0 with halted := true }.halted = true :=
  ⟨rfl, rfl, rfl, rfl⟩

theorem witness_LatchexpSignalsOncePerStart :
    latching.halted = false ∧ latching.latchRunning = true ∧ latching.latchExpired = false ∧
    at0.latchRunning = false ∧ { latching with latchExpired := true }.latchExpired = true ∧
    { latching with halted := true }.halted = true := ⟨rfl, rfl, rfl, rfl, rfl, rfl⟩

theorem witness_PendSetsTheBit : (pending .latch).halted = false ∧ (pending .latch).pend.get .latch = true ∧
    Irq.rxc ≠ .latch := by decide

theorem witness_AccessNeedsTheCeiling :
    (∀ r, ceiling r ≤ { at0 with curPrio := ceiling r }.curPrio) ∧ (∀ r, at0.curPrio < ceiling r) := by
  refine ⟨fun r => Nat.le_refl _, fun r => ?_⟩
  have h : ∃ t, Task.irq t ∈ accessors r := by
    cases r
    exacts [⟨.rxc, by decide⟩, ⟨.rxc, by decide⟩, ⟨.latch, by decide⟩, ⟨.tele, by decide⟩, ⟨.rxc, by decide⟩,
      ⟨.rxc, by decide⟩, ⟨.ledc, by decide⟩, ⟨.tele, by decide⟩, ⟨.ledc, by decide⟩]
  obtain ⟨t, ht⟩ := h
  exact Nat.lt_of_lt_of_le (prio_idle_lt t) (prio_le_ceiling ht)

theorem witness_AtomicRunsAtTheCeiling :
    at0.halted = false ∧
    (∃ s', runBlock (.pend .tele .done) { at0 with curPrio := max at0.curPrio (ceiling .txt) } = .next s' ∧
      s'.halted = false) ∧
    (∃ s', runBlock (.halt .timer .done) { at0 with curPrio := max at0.curPrio (ceiling .txt) } = .next s' ∧
      s'.halted = true) := ⟨rfl, ⟨_, rfl, rfl⟩, ⟨_, rfl, rfl⟩⟩

theorem witness_UnconditionalSectionsComplete :
    at0.halted = false ∧
    Block.unconditional (.submit .txt .tel (.atomic .rx (.pend .tele (.wfi 1 .done)) .done)) = true := by decide

theorem fstart_dispatchable (p : List Byte) :
    Dispatchable .fstart { pending .fstart with bufRgb := Memory.writeRange [] 0 p } :=
  dispatchable_alone rfl rfl rfl rfl

/-- `FSTART` answers a next state, unhalted. -/
theorem fstart_runs {s : State} {p : List Byte} (h : Dispatchable .fstart s) (ho : s.ownerTxled = .cpu)
    (hp : s.bufRgb.readRange 0 72 = some p) : ∃ s', exec .fstart s = .next s' ∧ s'.halted = false := by
  have hr := h.running
  have e := taskStep_next (fs := fstartSections) h
    (runSections_step (s1 := (enterTask .fstart s).countSwitch) rfl hr
    (runSections_step (fillLedBuffer_ok ho hp) hr
    (runSections_step (submitOrRaise_cpu (b := .txled) (c := .led) ho) hr (runSections_nil _)))) hr
    (a := ⟨_, 0, s.curPrio, _⟩) rfl rfl
  exact ⟨_, e, hr⟩

/-- `RXC` on an idle pipeline answers a next state, unhalted. -/
theorem rxc_runs {s : State} {p : List Byte} (h : Dispatchable .rxc s) (hb : s.busy = false) (ho : s.ownerRx = .dma)
    (hd : s.chRx.done = true) (he : s.chRx.err = .none) (hp : s.bufRx.readRange 0 72 = some p) :
    ∃ s', exec .rxc s = .next s' ∧ s'.halted = false := by
  have hr := h.running
  have e := taskStep_next (fs := rxcSections) h
    (runSections_step (s1 := (enterTask .rxc s).countSwitch) rfl hr
    (runSections_step (releaseOrRaise_done (b := .rx) (c := .rx) ho he hd) hr
    (runSections_step (takeFrame_idle hb rfl hr hp) hr
    (runSections_step (submitOrRaise_cpu (b := .rx) (c := .rx) rfl) hr (runSections_nil _))))) hr
    (a := ⟨_, 0, s.curPrio, _⟩) rfl rfl
  exact ⟨_, e, hr⟩

theorem received_dispatchable (p : List Byte) : Dispatchable .rxc (received p) := dispatchable_alone rfl rfl rfl rfl

/-- The last cell sent, `LEDC` pending. -/
def refreshed : State :=
  { pending .ledc with ownerTxled := .dma, chLed := { cnt := 577, done := true, err := .none } }

/-- The whole runs of the five tasks: each answers a next state, unhalted, from a state where it is dispatchable. -/
theorem witness_TasksRunOnlyWhenDispatchable :
    (∃ s', exec .rxc (received (frame 1 2 3)) = .next s' ∧ s'.halted = false) ∧
    (∃ s', exec .fstart { pending .fstart with bufRgb := Memory.writeRange [] 0 (frame 1 2 3) } = .next s' ∧
      s'.halted = false) ∧
    (∃ s', exec .ledc refreshed = .next s' ∧ s'.halted = false) ∧
    (∃ s', exec .latch (pending .latch) = .next s' ∧ s'.halted = false) ∧
    (∃ s', exec .tele (pending .tele) = .next s' ∧ s'.halted = false) :=
  ⟨rxc_runs (received_dispatchable _) rfl rfl rfl rfl (written_frame rfl),
    fstart_runs (fstart_dispatchable _) rfl (written_frame rfl), ⟨_, rfl, rfl⟩, ⟨_, rfl, rfl⟩, ⟨_, rfl, rfl⟩⟩

/-- Beside the runs above: both ways of `RXC`, with nothing on the stack. -/
theorem witness_SectionsOneByOneAreTheWholeRun :
    Dispatchable .rxc (received (frame 1 2 3)) ∧ (received (frame 1 2 3)).busy = false ∧
    (received (frame 1 2 3)).stack = [] ∧ Dispatchable .rxc { received (frame 1 2 3) with busy := true } ∧
    (∃ s', exec .rxc { received (frame 1 2 3) with busy := true } = .next s' ∧ s'.halted = false) ∧
    Dispatchable .ledc refreshed ∧ Dispatchable .latch (pending .latch) ∧ Dispatchable .tele (pending .tele) :=
  ⟨dispatchable_alone rfl rfl rfl rfl, rfl, rfl, dispatchable_alone rfl rfl rfl rfl, ⟨_, rfl, rfl⟩,
    dispatchable_alone rfl rfl rfl rfl, dispatchable_alone rfl rfl rfl rfl, dispatchable_alone rfl rfl rfl rfl⟩

theorem witness_SubmitStartsATransfer : at0.halted = false ∧ at0.owner .txled = .cpu ∧ at0.owner .rx = .dma :=
  ⟨rfl, rfl, rfl⟩

theorem witness_ReleaseReturnsOwnership :
    (refreshed.owner .txled = .dma ∧ refreshed.chanErr .led = .none ∧ refreshed.chanDone .led = true) ∧
    ({ at0 with chRx := { cnt := 30, done := false, err := .framing } }.owner .rx = .dma ∧
      { at0 with chRx := { cnt := 30, done := false, err := .framing } }.chanErr .rx ≠ .none) ∧
    at0.owner .txt = .cpu ∧ (at0.chanErr .rx = .none ∧ at0.chanDone .rx = false) := by decide

theorem witness_RxbyteStoresOrOverruns :
    (∀ n, n < 72 → { at0 with chRx := { cnt := n, done := false, err := .none } }.inFlight .rx .rx = true) ∧
    ((received (frame 1 2 3)).chRx.done = true ∧ (received (frame 1 2 3)).chRx.err = .none) ∧
    { at0 with ownerRx := .cpu }.ownerRx = .cpu ∧
    { at0 with chRx := { cnt := 72, done := true, err := .overrun } }.chRx.err ≠ .none :=
  ⟨fun _ _ => rfl, ⟨rfl, rfl⟩, rfl, by decide⟩

/-- The first and the last cell. -/
theorem witness_LedcellSendsTheNextCell :
    (∃ d, (refreshing (frame 1 2 3) 0).bufTxled.read 0 = some d) ∧
    (∃ d, (refreshing (frame 1 2 3) 576).bufTxled.read 576 = some d) ∧
    (refreshing (frame 1 2 3) 576).inFlight .txled .led = true ∧ at0.ownerTxled = .cpu ∧
    refreshed.chLed.done = true :=
  ⟨⟨_, read_of_readRange (written_enc _) (by decide)⟩,
    ⟨_, read_of_readRange (written_enc _) (by decide)⟩, rfl, rfl, rfl⟩

theorem witness_TelbyteSendsTheNextByte :
    (reporting snapT3 0).bufTxt.read 0 = some 0xAA ∧ (reporting snapT3 12).bufTxt.read 12 = some 0x55 ∧
    (reporting snapT3 12).inFlight .txt .tel = true ∧ at0.ownerTxt = .cpu := by decide

theorem witness_XfererrFlagsTheTransfer :
    at0.inFlight .rx .rx = true ∧ (refreshing (frame 1 2 3) 100).inFlight .txled .led = true ∧
    (reporting snapT3 0).inFlight .txt .tel = true ∧ at0.inFlight (channelBuf .led) .led = false ∧
    (received (frame 1 2 3)).inFlight .rx .rx = false ∧ XferErr.framing ≠ .none ∧
    XferErr.overrun ≠ .none ∧ Channel.tel ≠ .rx ∧ XferErr.overrun ≠ .dmaErr := by decide

theorem witness_RxcAcceptsAFrame :
    Dispatchable .rxc (received (frame 1 2 3)) ∧ (received (frame 1 2 3)).busy = false ∧
    (received (frame 1 2 3)).ownerRx = .dma ∧ (received (frame 1 2 3)).chRx.done = true ∧
    (received (frame 1 2 3)).chRx.err = .none ∧
    (received (frame 1 2 3)).bufRx.readRange 0 72 = some (frame 1 2 3) :=
  ⟨dispatchable_alone rfl rfl rfl rfl, rfl, rfl, rfl, rfl, written_frame rfl⟩

theorem witness_RxcDropsAFrame :
    Dispatchable .rxc { received (frame 1 2 3) with busy := true } ∧ (received (frame 1 2 3)).ownerRx = .dma ∧
    (received (frame 1 2 3)).chRx.done = true ∧ (received (frame 1 2 3)).chRx.err = .none :=
  ⟨dispatchable_alone rfl rfl rfl rfl, rfl, rfl, rfl⟩

theorem witness_FatalConditionsHaltTheRun :
    Dispatchable .rxc { pending .rxc with chRx := { cnt := 0, done := false, err := .overrun } } ∧
    Dispatchable .ledc { refreshed with chLed := { cnt := 100, done := false, err := .dmaErr } } ∧
    Dispatchable .tele
      { pending .tele with ownerTxt := .dma, chTel := { cnt := 5, done := false, err := .dmaErr } } ∧
    Dispatchable .tele
      { pending .tele with ownerTxt := .dma, chTel := { cnt := 5, done := false, err := .none } } ∧
    (XferErr.overrun, Cause.overrun) ∈ [(XferErr.overrun, Cause.overrun), (.framing, .framing), (.dmaErr, .dmaErr)] ∧
    (XferErr.dmaErr, Cause.dmaErr) ∈ [(XferErr.overrun, Cause.overrun), (.framing, .framing), (.dmaErr, .dmaErr)] :=
  ⟨dispatchable_alone rfl rfl rfl rfl, dispatchable_alone rfl rfl rfl rfl, dispatchable_alone rfl rfl rfl rfl,
    dispatchable_alone rfl rfl rfl rfl, by decide, by decide⟩

theorem witness_FstartFillsAndSubmits :
    Dispatchable .fstart { pending .fstart with bufRgb := Memory.writeRange [] 0 (frame 1 2 3) } ∧
    (pending .fstart).ownerTxled = .cpu ∧ (Memory.writeRange [] 0 (frame 1 2 3)).readRange 0 72 = some (frame 1 2 3) :=
  ⟨fstart_dispatchable _, rfl, written_frame rfl⟩

theorem witness_LedcStartsTheLatchTimer :
    Dispatchable .ledc refreshed ∧ refreshed.ownerTxled = .dma ∧ refreshed.chLed.done = true ∧
    refreshed.chLed.err = .none := ⟨dispatchable_alone rfl rfl rfl rfl, rfl, rfl, rfl⟩

theorem witness_LatchEndsTheCycle : Dispatchable .latch (waiting .latch latching) :=
  dispatchable_alone rfl rfl rfl rfl

theorem witness_FramesWhileBusyAreDropped :
    Inv latching ∧ latching.halted = false ∧ latching.busy = true ∧ latching.pend.rxc = false ∧
    (∀ u, latching.pend.get u = true → Config.prio (.irq u) ≤ Config.prio (.irq .rxc)) ∧ latching.chRx.cnt = 0 ∧
    (∀ p ∈ [frame 1 2 3, frame 4 5 6], p.length = 72) := by
  refine ⟨witness_inv_latching, rfl, rfl, rfl, ?_, rfl, by simp [frame_length]⟩
  intro u hu
  cases u <;> cases hu

theorem witness_frame : (frame 1 2 3).length = 72 ∧ enc (frame 1 2 3) = enc (frame 1 2 3) := ⟨rfl, rfl⟩

/-- The first cell, the last data cell and the reset cell. -/
theorem witness_LedcellIsTheWalker :
    Inv (refreshing (frame 1 2 3) 0) ∧ Inv (refreshing (frame 1 2 3) 575) ∧ Inv (refreshing (frame 1 2 3) 576) ∧
    (refreshing (frame 1 2 3) 576).halted = false ∧ (refreshing (frame 1 2 3) 576).ownerTxled = .dma ∧
    (refreshing (frame 1 2 3) 576).chLed.done = false ∧ (refreshing (frame 1 2 3) 576).chLed.err = .none ∧
    (refreshing (frame 1 2 3) 576).bufRgb.readRange 0 72 = some (frame 1 2 3) :=
  ⟨witness_inv_refreshing rfl (by decide), witness_inv_refreshing rfl (by decide),
    witness_inv_refreshing rfl (by decide), rfl, rfl, rfl, rfl, written_frame rfl⟩

theorem witness_RefreshSendsTheBuffer :
    (refreshing (frame 1 2 3) 0).halted = false ∧ (refreshing (frame 1 2 3) 0).ownerTxled = .dma ∧
    (refreshing (frame 1 2 3) 0).chLed = { cnt := 0, done := false, err := .none } ∧
    (refreshing (frame 1 2 3) 0).bufTxled.readRange 0 577 = some (enc (frame 1 2 3)) :=
  ⟨rfl, rfl, rfl, written_enc _⟩

theorem witness_OneCycleRefreshesTheFrame :
    Inv at0 ∧ at0.halted = false ∧ at0.busy = false ∧ at0.pend = noPending ∧ at0.chRx.cnt = 0 ∧
    (frame 1 2 3).length = 72 := ⟨witness_inv_idle, rfl, rfl, rfl, rfl, rfl⟩

theorem witness_SerDesRoundTrip : (List.replicate 11 (0xFF : Byte)).length = 11 := by decide

theorem witness_TeleReportsAndClears :
    Dispatchable .tele (pending .tele) ∧ (pending .tele).ownerTxt = .cpu ∧
    Dispatchable .tele
      { pending .tele with ownerTxt := .dma, chTel := { cnt := 13, done := true, err := .none } } :=
  ⟨dispatchable_alone rfl rfl rfl rfl, rfl, dispatchable_alone rfl rfl rfl rfl⟩

theorem witness_DecFollowsItsLoop :
    (List.replicate 12 (0xAA : Byte)).length < 13 ∧ 12 ≤ (List.replicate 12 (0xAA : Byte)).length ∧
    ((0 : Byte) ≠ 0xAA) ∧ (List.replicate 12 (0xAA : Byte)).getD 11 0 ≠ 0x55 := by decide

theorem witness_UtilIsTheFormula :
    zeroSnapshot.cycleCounter = zeroSnapshot.cycleCounter ∧ snapT3.cycleCounter ≠ zeroSnapshot.cycleCounter := by decide

/-- With room for all three bytes, exactly; with room for one; and after byte 72. -/
theorem witness_PixelArrivesAsThreeBytes :
    { at0 with chRx := { cnt := 69, done := false, err := .none } }.inFlight .rx .rx = true ∧ 69 + 3 ≤ 72 ∧
    { at0 with chRx := { cnt := 71, done := false, err := .none } }.chRx.cnt.toNat < 72 ∧
    (received (frame 1 2 3)).halted = false ∧ (received (frame 1 2 3)).inFlight .rx .rx = false := by decide

/-- Every byte may stand in the buffer, so each of the three cells can be the next one. -/
theorem witness_CellItemsAreLedcellBeats (d : Byte) :
    { refreshing [] 0 with bufTxled := [(0, d)] }.halted = false ∧
    { refreshing [] 0 with bufTxled := [(0, d)] }.inFlight .txled .led = true ∧
    { refreshing [] 0 with bufTxled := [(0, d)] }.bufTxled.read 0 = some d := ⟨rfl, rfl, rfl⟩

/-- The first LED and the last. -/
theorem witness_LedGroupIsTwentyFourBeats (g r b : Byte) :
    { refreshing [] 0 with bufTxled := Memory.writeRange [] 0 (groupCells g r b) }.inFlight .txled .led = true ∧
    (Memory.writeRange [] 0 (groupCells g r b)).readRange 0 24 = some (groupCells g r b) ∧
    (Memory.writeRange [] 552 (groupCells g r b)).readRange 552 24 = some (groupCells g r b) ∧
    552 % 24 = 0 ∧ 552 < 576 :=
  ⟨rfl, readRange_writeRange_of_length _ _ _ _ rfl, readRange_writeRange_of_length _ _ _ _ rfl, rfl, by decide⟩

theorem witness_ReportIsThirteenBeats :
    (reporting snapT3 0).halted = false ∧ (reporting snapT3 0).ownerTxt = .dma ∧
    (reporting snapT3 0).chTel = { cnt := 0, done := false, err := .none } ∧
    (reporting snapT3 0).bufTxt.readRange 0 13 = some (ser snapT3) := ⟨rfl, rfl, rfl, written_ser _⟩

theorem witness_HaltRaisesFatal : at0.halted = false ∧ Cause.overrun ≠ .none ∧ Cause.timer ≠ .none := by decide

theorem witness_HaltedOnlyResetRuns :
    { at0 with halted := true }.halted = true ∧ Instr.rxc.mayStandInTrace = true ∧
    (Instr.reset 0).mayStandInTrace = true := ⟨rfl, rfl, rfl⟩

theorem witness_StoresKeepEveryOtherByte :
    (∀ c0, Instr.rxbyte 5 ≠ .reset c0) ∧ (∃ s', exec (.rxbyte 5) at0 = .next s') ∧
    storedTo (.rxbyte 5) at0 .rx 1 = false ∧ storedTo (.rxbyte 5) at0 .rx 0 = true ∧
    storedTo (.rxbyte 5) at0 .txt 0 = false := ⟨by simp, ⟨_, rfl⟩, rfl, rfl, rfl⟩

theorem witness_OnlyTheNamedOperationsWrite :
    (Instr.idle 3).mayStandInTrace = true ∧ (∀ c0, Instr.idle 3 ≠ .reset c0) ∧ at0.sectioned = false ∧
    ∃ s', exec (.idle 3) at0 = .next s' := ⟨rfl, by simp, rfl, ⟨_, rfl⟩⟩

theorem witness_OperationsKeepTheEnvironment : ∃ s', exec (.pend .tele) { at0 with trace := [1] } = .next s' := ⟨_, rfl⟩

/-- A refresh with a tick to come: the invariants hold and the step answers a next state. -/
theorem witness_StepKeeps :
    Inv { refreshing (frame 1 2 3) 0 with trace := [0x15] } ∧
    LineOk { refreshing (frame 1 2 3) 0 with trace := [0x15] } ∧
    SerialOk { refreshing (frame 1 2 3) 0 with trace := [0x15] } ∧
    ∃ s', step { refreshing (frame 1 2 3) 0 with trace := [0x15] } = .next s' := by
  have inv := witness_inv_refreshing (frame_length 1 2 3) (n := 0) (by decide)
  refine ⟨⟨inv.memory.casesOn fun a b c d => ⟨a, b, c, d⟩, ⟨rfl, rfl, rfl⟩, inv.counts,
      fun h => (inv.pipeline h).casesOn fun a b c d e f => ⟨a, b, c, d, e, f⟩,
      fun h => (inv.transfers h).casesOn fun a b c d e f g i j => ⟨a, b, c, d, e, f, g, i, j⟩,
      inv.priority, inv.noCause, inv.reachableCause⟩,
    ⟨⟨0, rfl⟩, fun _ => rfl, fun _ _ => ⟨frame 1 2 3, [], written_frame rfl, rfl⟩, fun _ _ => rfl⟩, ?_, ⟨_, rfl⟩⟩
  exact ⟨[], zeroSnapshot, 0, by decide, rfl, fun _ _ => rfl, fun _ h => by cases h⟩

theorem witness_PipelineMovesAlongItsCycle :
    Inv latching ∧ latching.halted = false ∧ Instr.latchexp.mayStandInTrace = true ∧
    (∀ c0, Instr.latchexp ≠ .reset c0) ∧ ∃ s', exec .latchexp latching = .next s' ∧ s'.halted = false :=
  ⟨witness_inv_latching, rfl, rfl, by simp, _, rfl, rfl⟩

end Sys2Proof.Tests
end

section
/-! SUPPORT. The frame rules the laws leave out: a choice, a `require`, the DMA-side read, the beats and the data items, a
task run in any state (lemmas for any relation, on the model of Laws/Frames.lean). -/

namespace Sys2Proof.Proofs

open Sys2Proof Sys2Proof.Machine Sys2Proof.Laws

/-! ## Frame rules -/

variable {R : State → State → Prop}

/-- A choice keeps what both its branches keep. -/
theorem keeps_ite {p : State → Prop} [DecidablePred p] {f g : State → Result} (hf : Keeps R f) (hg : Keeps R g) :
    Keeps R fun s => if p s then f s else g s := by
  intro s s' hr h
  by_cases hp : p s
  · exact hf s s' hr ((if_pos hp).symm.trans h)
  · exact hg s s' hr ((if_neg hp).symm.trans h)

/-- A step guarded by a `require` that answers next met it. -/
theorem require_eq_next {p : Prop} [Decidable p] {q : Refusal} {r : Result} {s' : State} :
    (if p then r else .refused q) = .next s' ↔ p ∧ r = .next s' := by
  by_cases hp : p <;> simp [hp]

/-- A step guarded by the negation of what it checks. -/
theorem require_not_eq_next {p : Prop} [Decidable p] {q : Refusal} {r : Result} {s' : State} :
    (if p then .refused q else r) = .next s' ↔ ¬ p ∧ r = .next s' := by
  by_cases hp : p <;> simp [hp]

/-- A DMA-side read changes nothing before it hands its byte on. -/
theorem keeps_dmaRead {b : DmaBuf} {i : State → Nat} {k : Byte → State → Result} (hk : ∀ v, Keeps R (k v)) :
    Keeps R fun s => dmaRead b (i s) s fun v => k v s := by
  intro s s' hr h
  replace h : dmaRead b (i s) s (fun v => k v s) = .next s' := h
  unfold dmaRead at h
  split at h
  · cases h
  split at h
  · exact hk _ s s' hr h
  · cases h

/-- A byte on the serial input writes at most the receive buffer, its channel and the pending bits
(41_dma_buffers.md R153). -/
theorem keeps_rxBeat (refl : ∀ s, R s s) (store : ∀ s m c p, R s { s with bufRx := m, chRx := c, pend := p })
    (v : Byte) : Keeps R (rxBeat v) := by
  intro s s' hr h
  cases hf : s.inFlight .rx .rx
  · rw [rxBeat_lost v hf] at h
    cases h
    split
    · exact store s s.bufRx _ _
    · exact refl s
  · by_cases hc : s.chRx.cnt.toNat < 72
    · rw [rxBeat_store v hf hc] at h
      cases h
      exact store s _ _ _
    · have hsize : bufSize (dmaBuf .rx) ≤ s.chRx.cnt.toNat := Nat.le_of_not_lt hc
      simp [rxBeat, hf, dmaWrite, hsize] at h

theorem keeps_ledBeat (send : ∀ s d, R s (sendCell d s)) : Keeps R ledBeat :=
  keeps_ite (keeps_dmaRead fun d => keeps_next fun s => send s d) (keeps_refused _)

theorem keeps_telBeat (send : ∀ s v, R s (sendByte v s)) : Keeps R telBeat :=
  keeps_ite (keeps_dmaRead fun v => keeps_next fun s => send s v) (keeps_refused _)

theorem keeps_carryCell (send : ∀ s d, R s (sendCell d s)) (d : Byte) : Keeps R (carryCell d) :=
  keeps_ite (keeps_dmaRead fun d' => keeps_ite (keeps_next fun s => send s d') (keeps_refused _)) (keeps_refused _)

theorem keeps_carryByte (send : ∀ s v, R s (sendByte v s)) (v : Byte) : Keeps R (carryByte v) :=
  keeps_ite (keeps_dmaRead fun v' => keeps_ite (keeps_next fun s => send s v') (keeps_refused _)) (keeps_refused _)

/-- Cells on the LED line keep what each beat keeps. -/
theorem keeps_carryCells (refl : ∀ s, R s s) (trans : ∀ a b c, R a b → R b c → R a c)
    (send : ∀ s d, R s (sendCell d s)) (ds : List Byte) : Keeps R (carryCells ds) := by
  induction ds with
  | nil => exact keeps_next refl
  | cons d ds ih => exact keeps_andThen (R := R) trans (keeps_carryCell send d) ih

/-- Bytes on the serial output keep what each beat keeps. -/
theorem keeps_carryBytes (refl : ∀ s, R s s) (trans : ∀ a b c, R a b → R b c → R a c)
    (send : ∀ s v, R s (sendByte v s)) (vs : List Byte) : Keeps R (carryBytes vs) := by
  induction vs with
  | nil => exact keeps_next refl
  | cons v vs ih => exact keeps_andThen (R := R) trans (keeps_carryByte send v) ih

/-- A task runs in no halted state, whole or section by section (60_exceptions.md R298). -/
theorem taskStep_next_running {t : Irq} {fs : List (State → Result)} {s s' : State}
    (h : taskStep t fs s = .next s') : s.halted = false := by
  cases hh : s.halted
  · rfl
  · cases hm : s.sectioned <;> simp [taskStep, hm, oneSection, wholeRun, whenDispatchable, hh] at h

end Sys2Proof.Proofs
end

section
/-! The environment's own data under every operation (logs 1, 2, 8, 13). -/

namespace Sys2Proof.Proofs

open Sys2Proof Sys2Proof.Machine Sys2Proof.Laws

/-- The environment's own data: the rest of the trace, the waiting calls, the granularity. -/
def environment (s : State) : List Byte × List Call × Bool := (s.trace, s.calls, s.sectioned)

/-- The environment's data is the same before and after. -/
def SameEnvironment (s s' : State) : Prop := environment s' = environment s

theorem sameEnvironment_iff {s s' : State} :
    SameEnvironment s s' ↔ s'.trace = s.trace ∧ s'.calls = s.calls ∧ s'.sectioned = s.sectioned := by
  simp [SameEnvironment, environment]

/-! ## The updates of the shared operations -/

theorem sameEnvironment_refl (s : State) : SameEnvironment s s := rfl

theorem sameEnvironment_trans (a b c : State) (h : SameEnvironment a b) (k : SameEnvironment b c) :
    SameEnvironment a c := k.trans h

theorem sameEnvironment_halt (s : State) (c : Cause) :
    SameEnvironment s { s with halted := true, cause := c, stack := [] } := rfl

theorem sameEnvironment_setOwner (s : State) (b : DmaBuf) (o : Owner) : SameEnvironment s (s.setOwner b o) := by
  simp [sameEnvironment_iff]

theorem sameEnvironment_updChan (s : State) (c : Channel) (f : ∀ width, DmaChannel width → DmaChannel width) :
    SameEnvironment s (s.updChan c f) := by
  simp [sameEnvironment_iff]

theorem sameEnvironment_setLocalSnap (s : State) (v : Snapshot) : SameEnvironment s (s.setLocalSnap v) := by
  simp [sameEnvironment_iff]

/-- The hand-over of a buffer to the DMA side. -/
theorem sameEnvironment_handOver (s : State) (b : DmaBuf) (c : Channel) :
    SameEnvironment s ((s.setOwner b .dma).restart c) :=
  sameEnvironment_trans _ _ _ (sameEnvironment_setOwner s b .dma) (sameEnvironment_updChan _ _ _)

theorem sameEnvironment_sendCell (s : State) (d : Byte) : SameEnvironment s (sendCell d s) := by
  unfold sendCell
  split <;> rfl

theorem sameEnvironment_raiseChannel (ch : Channel) (s : State) : SameEnvironment s (raiseChannel ch s) := by
  cases ch <;> rfl

/-! ## The tasks -/

theorem countRun_keepsEnvironment : Keeps SameEnvironment countRun := keeps_next fun _ => rfl

theorem releaseOrRaise_keepsEnvironment (b : DmaBuf) (c : Channel) :
    Keeps SameEnvironment (releaseOrRaise b c) :=
  keeps_releaseOrRaise sameEnvironment_trans sameEnvironment_halt c fun s => sameEnvironment_setOwner s b .cpu

theorem submitOrRaise_keepsEnvironment (b : DmaBuf) (c : Channel) :
    Keeps SameEnvironment (submitOrRaise b c) :=
  keeps_submitOrRaise sameEnvironment_halt fun s => sameEnvironment_handOver s b c

theorem rxcSections_keepEnvironment : ∀ f ∈ rxcSections, Keeps SameEnvironment f := by
  simp only [rxcSections, List.forall_mem_cons]
  exact ⟨countRun_keepsEnvironment, releaseOrRaise_keepsEnvironment _ _,
    keeps_takeFrame sameEnvironment_refl sameEnvironment_halt fun _ _ _ _ => rfl,
    submitOrRaise_keepsEnvironment _ _, List.forall_mem_nil _⟩

theorem fstartSections_keepEnvironment : ∀ f ∈ fstartSections, Keeps SameEnvironment f := by
  simp only [fstartSections, List.forall_mem_cons]
  exact ⟨countRun_keepsEnvironment, keeps_fillLedBuffer sameEnvironment_halt fun _ _ _ => rfl,
    submitOrRaise_keepsEnvironment _ _, List.forall_mem_nil _⟩

theorem ledcSections_keepEnvironment : ∀ f ∈ ledcSections, Keeps SameEnvironment f := by
  simp only [ledcSections, List.forall_mem_cons]
  exact ⟨countRun_keepsEnvironment, releaseOrRaise_keepsEnvironment _ _, keeps_next fun _ => rfl,
    List.forall_mem_nil _⟩

theorem latchSections_keepEnvironment : ∀ f ∈ latchSections, Keeps SameEnvironment f := by
  simp only [latchSections, List.forall_mem_cons]
  exact ⟨countRun_keepsEnvironment, keeps_next fun _ => rfl, keeps_next fun _ => rfl, keeps_next fun _ => rfl,
    List.forall_mem_nil _⟩

theorem teleSections_keepEnvironment : ∀ f ∈ teleSections, Keeps SameEnvironment f := by
  have snap (v : State → Snapshot) : Keeps SameEnvironment fun s => .next (s.setLocalSnap (v s)) :=
    keeps_next fun s => sameEnvironment_setLocalSnap s (v s)
  simp only [teleSections, List.forall_mem_cons]
  exact ⟨keeps_reclaimReport sameEnvironment_refl sameEnvironment_trans sameEnvironment_halt
      fun s => sameEnvironment_setOwner s _ _,
    snap _, snap _, snap _, snap _,
    keeps_sendReport sameEnvironment_trans sameEnvironment_halt (fun _ _ _ => rfl)
      fun s => sameEnvironment_handOver s _ _,
    keeps_next fun _ => rfl, keeps_next fun _ => rfl, keeps_next fun _ => rfl, List.forall_mem_nil _⟩

/-- A task run, whole or one section of it, keeps the environment's data if its sections do. -/
theorem taskStep_sameEnvironment {t : Irq} {fs : List (State → Result)}
    (hfs : ∀ f ∈ fs, Keeps SameEnvironment f) {s s' : State} (h : taskStep t fs s = .next s') :
    SameEnvironment s s' :=
  keeps_taskStep sameEnvironment_refl sameEnvironment_trans (fun _ => rfl) (fun _ _ _ => rfl) hfs s s'
    (taskStep_next_running h) h

/-! ## The other operations -/

theorem idleSection_keepsEnvironment (d : U32) :
    Keeps SameEnvironment (atomicSection .sleepCycles (measuredWait d)) := by
  refine keeps_atomicSection sameEnvironment_trans (fun _ _ => rfl) _ fun s s' hr h => ?_
  obtain ⟨s1, ⟨⟩, ⟨_, rfl⟩ | ⟨_, ⟨⟩⟩⟩ := andThen_eq_next.1 h <;> rfl

theorem runBlock_keepsEnvironment (b : Block) : Keeps SameEnvironment (runBlock b) :=
  keeps_runBlock sameEnvironment_refl sameEnvironment_trans sameEnvironment_halt (fun _ _ => rfl) (fun _ _ => rfl)
    sameEnvironment_setOwner sameEnvironment_updChan (fun _ _ => rfl) (fun _ _ => rfl) b

theorem rxBeat_keepsEnvironment (v : Byte) : Keeps SameEnvironment (rxBeat v) :=
  keeps_rxBeat sameEnvironment_refl (fun _ _ _ _ => rfl) v

/-- A transfer error flags its channel and raises the channel's interrupt (41_dma_buffers.md R156). -/
theorem xfererr_sameEnvironment (s : State) (ch : Channel) (kind : XferErr) :
    SameEnvironment s (raiseChannel ch (s.flagError ch kind)) :=
  sameEnvironment_trans _ _ _ (sameEnvironment_updChan s _ _) (sameEnvironment_raiseChannel ch _)

theorem carryCell_keepsEnvironment (d : Byte) : Keeps SameEnvironment (carryCell d) :=
  keeps_carryCell sameEnvironment_sendCell d

/-- A call that only answers a value keeps the environment's data, in the halted state too. -/
theorem returning_sameEnvironment {s s' : State} {v : Value}
    (h : (.next (s.returning v) : Result) = .next s') : SameEnvironment s s' := by
  cases h; rfl

/-- No operation touches the environment's own data. -/
theorem exec_sameEnvironment {i : Instr} {s s' : State} (h : exec i s = .next s') : SameEnvironment s s' := by
  cases i with
  | idle d =>
    obtain ⟨hr, h⟩ := whenRunning_eq_next.1 h
    obtain ⟨_, h⟩ := require_not_eq_next.1 h
    obtain ⟨_, h⟩ := require_not_eq_next.1 h
    exact idleSection_keepsEnvironment d s s' hr h
  | tele => exact taskStep_sameEnvironment teleSections_keepEnvironment h
  | rxc => exact taskStep_sameEnvironment rxcSections_keepEnvironment h
  | fstart => exact taskStep_sameEnvironment fstartSections_keepEnvironment h
  | ledc => exact taskStep_sameEnvironment ledcSections_keepEnvironment h
  | latch => exact taskStep_sameEnvironment latchSections_keepEnvironment h
  | access r => exact keeps_whenRunning (keeps_callAccess r fun _ _ => rfl) h
  | atomic r body =>
    exact keeps_whenRunning
      (keeps_atomicSection sameEnvironment_trans (fun _ _ => rfl) r (runBlock_keepsEnvironment body)) h
  | submit b c =>
    exact keeps_whenRunning (keeps_callSubmit sameEnvironment_trans b c (fun _ _ => rfl)
      fun s => sameEnvironment_handOver s b c) h
  | release b c =>
    exact keeps_whenRunning (keeps_callRelease sameEnvironment_trans sameEnvironment_halt b c (fun _ _ => rfl)
      fun s => sameEnvironment_setOwner s b .cpu) h
  | pend t => obtain ⟨_, ⟨⟩⟩ := whenRunning_eq_next.1 h; rfl
  | wfi d => obtain ⟨_, ⟨⟩⟩ := whenRunning_eq_next.1 h; rfl
  | halt c =>
    obtain ⟨_, h⟩ := whenRunning_eq_next.1 h
    obtain ⟨_, ⟨⟩⟩ := require_not_eq_next.1 h
    exact sameEnvironment_halt s c
  | reset c0 => cases h; rfl
  | rxbyte v => exact keeps_whenRunning (rxBeat_keepsEnvironment v) h
  | ledcell => exact keeps_whenRunning (keeps_ledBeat sameEnvironment_sendCell) h
  | telbyte => exact keeps_whenRunning (keeps_telBeat fun _ _ => rfl) h
  | latchexp =>
    obtain ⟨_, h⟩ := whenRunning_eq_next.1 h
    obtain ⟨_, ⟨⟩⟩ := require_eq_next.1 h
    rfl
  | teltick => obtain ⟨_, ⟨⟩⟩ := whenRunning_eq_next.1 h; rfl
  | cycadv n => obtain ⟨_, ⟨⟩⟩ := whenRunning_eq_next.1 h; rfl
  | xfererr ch kind =>
    obtain ⟨_, h⟩ := whenRunning_eq_next.1 h
    obtain ⟨_, h⟩ := require_not_eq_next.1 h
    obtain ⟨_, ⟨⟩⟩ := require_eq_next.1 h
    exact xfererr_sameEnvironment s ch kind
  | enc p => exact returning_sameEnvironment (require_eq_next.1 h).2
  | cell b => exact returning_sameEnvironment h
  | ser x => exact returning_sameEnvironment h
  | des q =>
    replace h : execDes q s = .next s' := h
    unfold execDes at h
    split at h
    · exact returning_sameEnvironment h
    · cases h
  | dec z => exact returning_sameEnvironment h
  | util a b =>
    replace h : execUtil a b s = .next s' := h
    unfold execUtil at h
    split at h
    · exact returning_sameEnvironment h
    · cases h
  | reserved06 => cases h
  | reserved07 => cases h
  | reserved0F => cases h
  | reserved1E => cases h
  | reserved1F => cases h
  | fPixel r g b =>
    exact keeps_whenRunning
      (keeps_andThen sameEnvironment_trans (rxBeat_keepsEnvironment r)
        (keeps_andThen sameEnvironment_trans (rxBeat_keepsEnvironment g) (rxBeat_keepsEnvironment b))) h
  | fCell0 => exact keeps_whenRunning (carryCell_keepsEnvironment _) h
  | fCell1 => exact keeps_whenRunning (carryCell_keepsEnvironment _) h
  | fCellRst => exact keeps_whenRunning (carryCell_keepsEnvironment _) h
  | fTel x =>
    obtain ⟨hr, h⟩ := whenRunning_eq_next.1 h
    obtain ⟨_, h⟩ := require_eq_next.1 h
    exact keeps_carryBytes sameEnvironment_refl sameEnvironment_trans (fun _ _ => rfl) _ s s' hr h
  | fLedGroup g r b =>
    obtain ⟨hr, h⟩ := whenRunning_eq_next.1 h
    obtain ⟨_, h⟩ := require_eq_next.1 h
    exact keeps_carryCells sameEnvironment_refl sameEnvironment_trans sameEnvironment_sendCell _ s s' hr h

/-- Settles O56: each operation is built of parts that keep the environment's data. -/
theorem operationsKeepTheEnvironment : Obligations.OperationsKeepTheEnvironment := by
  unfold Obligations.OperationsKeepTheEnvironment
  exact fun _ _ _ h => sameEnvironment_iff.1 (exec_sameEnvironment h)

end Sys2Proof.Proofs
end

section
/-! The pipeline invariant (10_state.md R41): what its fields say of each pipeline state, and the states it admits. -/

namespace Sys2Proof.Proofs

open Sys2Proof Sys2Proof.Machine Sys2Proof.Laws

variable {s : State}

/-! ## What a flag says of the pipeline (42_frame_pipeline.md R180) -/

/-- What an idle pipeline has none of. -/
theorem busy_of_stage (p : PipelineOk s)
    (h : s.pend.fstart = true ∨ s.ownerTxled = .dma ∨ s.latchRunning = true) : s.busy = true := by
  by_contra hb
  obtain ⟨hf, ho, hl, _⟩ := p.idle (by simpa using hb)
  simp [hf, ho, hl] at h

theorem encoding_of_fstart (p : PipelineOk s) (h : s.pend.fstart = true) :
    s.busy = true ∧ s.ownerTxled = .cpu ∧ s.latchRunning = false := by
  have hb := busy_of_stage p (.inl h)
  rcases p.oneHot hb with ⟨_, ho, hl⟩ | ⟨hf, _⟩ | ⟨hf, _⟩
  · exact ⟨hb, ho, hl⟩
  · simp [hf] at h
  · simp [hf] at h

theorem transmitting_of_dma (p : PipelineOk s) (h : s.ownerTxled = .dma) :
    s.busy = true ∧ s.pend.fstart = false ∧ s.latchRunning = false := by
  have hb := busy_of_stage p (.inr (.inl h))
  rcases p.oneHot hb with ⟨_, ho, _⟩ | ⟨hf, _, hl⟩ | ⟨_, ho, _⟩
  · simp [ho] at h
  · exact ⟨hb, hf, hl⟩
  · simp [ho] at h

theorem latching_of_running (p : PipelineOk s) (h : s.latchRunning = true) :
    s.pend.fstart = false ∧ s.ownerTxled = .cpu := by
  rcases p.oneHot (busy_of_stage p (.inr (.inr h))) with ⟨_, _, hl⟩ | ⟨_, _, hl⟩ | ⟨hf, ho, _⟩
  · simp [hl] at h
  · simp [hl] at h
  · exact ⟨hf, ho⟩

/-- `LEDC` is pending only on a refresh that is over, by its last cell or by an error. -/
theorem refresh_over_of_ledc (p : PipelineOk s) (h : s.pend.ledc = true) :
    s.ownerTxled = .dma ∧ (s.chLed.err = .none → s.chLed.done = true) := by
  by_cases he : s.chLed.err = .none
  · obtain ⟨ho, hd⟩ := (p.ledc he).1 h
    exact ⟨ho, fun _ => hd⟩
  · exact ⟨(p.ledcErr he).1 h, fun h' => absurd h' he⟩

theorem not_ledc_of_cpu (p : PipelineOk s) (h : s.ownerTxled = .cpu) : s.pend.ledc = false := by
  by_contra hl
  simp [(refresh_over_of_ledc p (by simpa using hl)).1] at h

theorem not_ledc_of_inFlight (p : PipelineOk s) (hd : s.chLed.done = false) (he : s.chLed.err = .none) :
    s.pend.ledc = false := by
  by_contra hl
  simp [(refresh_over_of_ledc p (by simpa using hl)).2 he] at hd

/-- A stopped timer has neither signalled nor requested `LATCH`. -/
theorem quiet_of_stopped (p : PipelineOk s) (h : s.latchRunning = false) :
    s.latchExpired = false ∧ s.pend.latch = false := by
  constructor
  · by_contra he
    simp [p.expired (by simpa using he)] at h
  · by_contra hl
    simp [(p.latch.1 (by simpa using hl)).1] at h

/-! ## Transfers and counts -/

/-- A transfer that is not complete has a byte left to move. -/
theorem count_lt {n size : Nat} {done : Bool} (hn : n ≤ size) (hd : done = true ↔ n = size) (h : done = false) :
    n < size := by
  refine Nat.lt_of_le_of_ne hn fun e => ?_
  simp [hd.2 e] at h

/-- The completion flag after one more byte says that the count has reached the size. -/
theorem done_advance_iff {w size : Nat} {c : BitVec w} (h : (c + 1).toNat = c.toNat + 1) :
    decide (c.toNat + 1 = size) = true ↔ (c + 1).toNat = size := by rw [h, decide_eq_true_iff]

/-- One more byte written: every byte up to and with it holds a value. -/
theorem writtenTo_writeRange_next {m : Memory} {n : Nat} (h : writtenTo m n) (v : Byte) :
    writtenTo (m.writeRange n [v]) (n + 1) := by
  intro i hi
  rw [read_writeRange]
  split
  · next hin => simp [show i - n = 0 by simp at hin; omega]
  · next hout => exact h i (by simp at hout; omega)

theorem readRange_of_writtenTo {m : Memory} {n : Nat} (h : writtenTo m n) : ∃ vs, m.readRange 0 n = some vs :=
  readRange_isSome fun k hk => by simpa using h k hk

theorem writtenTo_of_readRange {m : Memory} {n : Nat} {vs : List Byte} (h : m.readRange 0 n = some vs) :
    writtenTo m n := fun _ hi => by simp [read_of_readRange h hi]

/-- The byte a beat reads from a buffer that reads as a whole. -/
theorem read_isSome_of_readRange {m : Memory} {n i : Nat} {vs : List Byte} (h : m.readRange 0 n = some vs)
    (hi : i < n) : ∃ v, m.read i = some v := ⟨_, read_of_readRange h hi⟩

/-- A write inside a buffer keeps the buffer's form. -/
theorem writeRange_ok {m : Memory} {n : Nat} (h : m.wf ∧ m.within n) {i : Nat} {vs : List Byte}
    (hi : i + vs.length ≤ n) : (m.writeRange i vs).wf ∧ (m.writeRange i vs).within n :=
  ⟨writeRange_wf m i vs h.1, writeRange_within m i vs n h.2 hi⟩

/-! ## States of the invariant -/

/-- What the invariant reads beside the pipeline and the transfers. -/
def control (s : State) : Bool × Cause × Nat × Bool × List Activation × List Call :=
  (s.halted, s.cause, s.curPrio, s.sectioned, s.stack, s.calls)

/-- An operation that completes: the invariant holds after it if its buffers, counts, pipeline and transfers are
right. -/
theorem inv_of_control_eq {s' : State} (inv : Inv s) (hr : s.halted = false) (hc : control s' = control s)
    (memory : MemoryOk s')
    (counts : s'.chRx.cnt.toNat ≤ Config.frameBytes ∧ s'.chLed.cnt.toNat ≤ Config.ledBufBytes ∧
      s'.chTel.cnt.toNat ≤ Config.teleBytes)
    (pipeline : PipelineOk s') (transfers : TransfersOk s') : Inv s' := by
  simp only [control, Prod.mk.injEq] at hc
  obtain ⟨hhalted, hcause, hprio, hsectioned, hstack, hcalls⟩ := hc
  exact {
    memory, counts
    mode := ⟨hsectioned.trans inv.mode.sectioned, hstack.trans inv.mode.stack, hcalls.trans inv.mode.calls⟩
    pipeline := fun _ => pipeline
    transfers := fun _ => transfers
    priority := fun _ => hprio.trans (inv.priority hr)
    noCause := fun _ => hcause.trans (inv.noCause hr)
    reachableCause := fun h => by simp [hhalted, hr] at h }

/-- Reset gives a state of the invariant, whatever the environment has chosen to come (10_state.md R46). -/
theorem inv_resetTo (c0 : U32) (hm : s.sectioned = false) (hc : s.calls = []) : Inv (resetTo c0 s) where
  memory := ⟨by simp [State.reset], by simp [State.reset], by simp [State.reset], by simp [State.reset]⟩
  mode := ⟨hm, rfl, hc⟩
  counts := by simp [State.reset, idleChannel]
  pipeline _ := by constructor <;> simp [State.reset, noPending]
  transfers _ := by
    constructor <;> simp [State.reset, noPending, idleChannel, writtenTo, Config.frameBytes]
  priority _ := rfl
  noCause _ := rfl
  reachableCause h := nomatch h

/-- The invariant does not read the counters, the rest of the trace or `TELE`'s pending bit. -/
theorem inv_unread (inv : Inv s) (cc sl : U32) (rest : List Byte) (tick : Bool) :
    Inv { s with cycleCounter := cc, sleepCycles := sl, trace := rest, pend := { s.pend with tele := tick } } where
  memory := { inv.memory with }
  mode := { inv.mode with }
  counts := inv.counts
  pipeline hr := { inv.pipeline hr with }
  transfers hr := { inv.transfers hr with }
  priority := inv.priority
  noCause := inv.noCause
  reachableCause := inv.reachableCause

/-- A fatal error with a reachable cause: what ran before it may have counted, raised the priority, taken pending bits
and buffers back (60_exceptions.md R291, R296, R297). -/
theorem inv_halt (inv : Inv s) {c : Cause} (hc : c ∈ [Cause.overrun, .framing, .dmaErr, .submitBusy]) (n : U16)
    (prio : Nat) (p : PendingBits) (rx led tel : Owner) :
    Inv { s with
      halted := true, cause := c, stack := [], contextSwitches := n, curPrio := prio, pend := p,
      ownerRx := rx, ownerTxled := led, ownerTxt := tel } where
  memory := { inv.memory with }
  mode := ⟨inv.mode.sectioned, rfl, inv.mode.calls⟩
  counts := inv.counts
  pipeline h := nomatch h
  transfers h := nomatch h
  priority h := nomatch h
  noCause h := nomatch h
  reachableCause _ := hc

/-- A transfer error becomes one of the reachable causes (60_exceptions.md R291). -/
theorem errCause_reachable {e : XferErr} (h : e ≠ .none) :
    errCause e ∈ [Cause.overrun, .framing, .dmaErr, .submitBusy] := by
  cases e with
  | none => exact absurd rfl h
  | overrun => decide
  | framing => decide
  | dmaErr => decide

end Sys2Proof.Proofs
end

section
/-! What a whole run of each interrupt task does, outcome by outcome (42_frame_pipeline.md R181 to R184,
44_telemetry.md R251). -/

namespace Sys2Proof.Proofs

open Sys2Proof Sys2Proof.Machine Sys2Proof.Laws

variable {s : State}

/-! ## `RXC` (R181, R187) -/

theorem exec_rxc_accepts {p : List Byte} (h : Dispatchable .rxc s) (hb : s.busy = false) (ho : s.ownerRx = .dma)
    (hd : s.chRx.done = true) (he : s.chRx.err = .none) (hp : s.bufRx.readRange 0 72 = some p) :
    exec .rxc s = .next
      { s with
        contextSwitches := s.contextSwitches + 1, bufRgb := s.bufRgb.writeRange 0 p, busy := true,
        pend := { s.pend with rxc := false, fstart := true }, ownerRx := .dma, chRx := idleChannel } := by
  have hr := h.running
  exact taskStep_next (fs := rxcSections) h
    (runSections_step (s1 := (enterTask .rxc s).countSwitch) rfl hr
    (runSections_step (releaseOrRaise_done (b := .rx) (c := .rx) ho he hd) hr
    (runSections_step (takeFrame_idle hb rfl hr hp) hr
    (runSections_step (submitOrRaise_cpu (b := .rx) (c := .rx) rfl) hr (runSections_nil _))))) hr
    (a := ⟨_, 0, s.curPrio, _⟩) rfl rfl

theorem exec_rxc_drops (h : Dispatchable .rxc s) (hb : s.busy = true) (ho : s.ownerRx = .dma)
    (hd : s.chRx.done = true) (he : s.chRx.err = .none) :
    exec .rxc s = .next
      { s with
        contextSwitches := s.contextSwitches + 1, pend := { s.pend with rxc := false }, ownerRx := .dma,
        chRx := idleChannel } := by
  have hr := h.running
  exact taskStep_next (fs := rxcSections) h
    (runSections_step (s1 := (enterTask .rxc s).countSwitch) rfl hr
    (runSections_step (releaseOrRaise_done (b := .rx) (c := .rx) ho he hd) hr
    (runSections_step (takeFrame_busy hb) hr
    (runSections_step (submitOrRaise_cpu (b := .rx) (c := .rx) rfl) hr (runSections_nil _))))) hr
    (a := ⟨_, 0, s.curPrio, _⟩) rfl rfl

theorem exec_rxc_error (h : Dispatchable .rxc s) (ho : s.ownerRx = .dma) (he : s.chRx.err ≠ .none) :
    exec .rxc s = .next
      { s with
        pend := { s.pend with rxc := false }, contextSwitches := s.contextSwitches + 1, ownerRx := .cpu,
        halted := true, cause := errCause s.chRx.err, curPrio := Config.prio (.irq .rxc), stack := [] } :=
  taskStep_halt (fs := rxcSections) h
    (runSections_step (s1 := (enterTask .rxc s).countSwitch) rfl h.running
    (runSections_halt (releaseOrRaise_err (b := .rx) (c := .rx) ho he) rfl)) rfl

/-! ## `FSTART` (R182) -/

theorem exec_fstart_fills {p : List Byte} (h : Dispatchable .fstart s) (ho : s.ownerTxled = .cpu)
    (hp : s.bufRgb.readRange 0 72 = some p) :
    exec .fstart s = .next
      { s with
        contextSwitches := s.contextSwitches + 1, pend := { s.pend with fstart := false },
        bufTxled := s.bufTxled.writeRange 0 (enc p), ownerTxled := .dma, chLed := idleChannel } := by
  have hr := h.running
  exact taskStep_next (fs := fstartSections) h
    (runSections_step (s1 := (enterTask .fstart s).countSwitch) rfl hr
    (runSections_step (fillLedBuffer_ok ho hp) hr
    (runSections_step (submitOrRaise_cpu (b := .txled) (c := .led) ho) hr (runSections_nil _)))) hr
    (a := ⟨_, 0, s.curPrio, _⟩) rfl rfl

/-! ## `LEDC` (R183) -/

theorem exec_ledc_done (h : Dispatchable .ledc s) (ho : s.ownerTxled = .dma) (hd : s.chLed.done = true)
    (he : s.chLed.err = .none) :
    exec .ledc s = .next
      { s with
        contextSwitches := s.contextSwitches + 1, pend := { s.pend with ledc := false }, ownerTxled := .cpu,
        latchRunning := true, latchExpired := false } := by
  have hr := h.running
  exact taskStep_next (fs := ledcSections) h
    (runSections_step (s1 := (enterTask .ledc s).countSwitch) rfl hr
    (runSections_step (releaseOrRaise_done (b := .txled) (c := .led) ho he hd) hr
    (runSections_step rfl hr (runSections_nil _)))) hr
    (a := ⟨_, 0, s.curPrio, _⟩) rfl rfl

theorem exec_ledc_error (h : Dispatchable .ledc s) (ho : s.ownerTxled = .dma) (he : s.chLed.err ≠ .none) :
    exec .ledc s = .next
      { s with
        pend := { s.pend with ledc := false }, contextSwitches := s.contextSwitches + 1, ownerTxled := .cpu,
        halted := true, cause := errCause s.chLed.err, curPrio := Config.prio (.irq .ledc), stack := [] } :=
  taskStep_halt (fs := ledcSections) h
    (runSections_step (s1 := (enterTask .ledc s).countSwitch) rfl h.running
    (runSections_halt (releaseOrRaise_err (b := .txled) (c := .led) ho he) rfl)) rfl

/-! ## `LATCH` (R184) -/

theorem exec_latch_ends (h : Dispatchable .latch s) :
    exec .latch s = .next
      { s with
        contextSwitches := s.contextSwitches + 1, pend := { s.pend with latch := false },
        latchRunning := false, latchExpired := false, busy := false, frames := s.frames + 1 } := by
  have hr := h.running
  exact taskStep_next (fs := latchSections) h
    (runSections_step (s1 := (enterTask .latch s).countSwitch) rfl hr
    (runSections_step rfl hr (runSections_step rfl hr (runSections_step rfl hr (runSections_nil _))))) hr
    (a := ⟨_, 0, s.curPrio, _⟩) rfl rfl

/-! ## `TELE` (44_telemetry.md R251) -/

/-- The counters as `TELE` reports them (30_encoding.md R98). -/
def snapshotOf (s : State) : Snapshot :=
  { contextSwitches := s.contextSwitches, frames := s.frames, sleepCycles := s.sleepCycles,
    cycleCounter := s.cycleCounter }

/-- Sections 2 to 5 copy the four counters into the run's own snapshot. -/
theorem runSections_snapshot {a : Activation} {rest : List Activation} (hr : s.halted = false)
    (hs : s.stack = a :: rest) (fs : List (State → Result)) :
    runSections ((teleSections.drop 1).take 4 ++ fs) s =
      runSections fs { s with stack := { a with snap := snapshotOf s } :: rest } := by
  simp [teleSections, State.setLocalSnap, State.localSnap, hs, hr, snapshotOf]

/-- Sections 7 to 9 clear the reported counters. -/
theorem runSections_clear (hr : s.halted = false) :
    runSections (teleSections.drop 6) s =
      .next { s with contextSwitches := 0, frames := 0, sleepCycles := 0 } := by
  simp [teleSections, hr]

theorem exec_tele_reports (h : Dispatchable .tele s)
    (hf : s.ownerTxt = .cpu ∨ (s.chTel.done = true ∧ s.chTel.err = .none)) :
    exec .tele s = .next
      { s with
        pend := { s.pend with tele := false }, bufTxt := s.bufTxt.writeRange 0 (ser (snapshotOf s)),
        ownerTxt := .dma, chTel := idleChannel, contextSwitches := 0, frames := 0, sleepCycles := 0 } := by
  have hr := h.running
  have sections : teleSections = reclaimReport :: ((teleSections.drop 1).take 4 ++ sendReport :: teleSections.drop 6) :=
    rfl
  have run : runSections teleSections (enterTask .tele s) = .next
      { enterTask .tele s with
        bufTxt := s.bufTxt.writeRange 0 (ser (snapshotOf s)), ownerTxt := .dma, chTel := idleChannel,
        contextSwitches := 0, frames := 0, sleepCycles := 0,
        stack := ⟨.tele, 0, s.curPrio, snapshotOf s⟩ :: s.stack } := by
    rw [sections]
    refine runSections_step (reclaimReport_free (s := enterTask .tele s) hf) hr ?_
    refine (runSections_snapshot (s := { enterTask .tele s with ownerTxt := .cpu }) hr rfl _).trans ?_
    exact runSections_step (sendReport_ok rfl hr) hr (runSections_clear hr)
  exact taskStep_next h run hr rfl rfl

theorem exec_tele_error (h : Dispatchable .tele s) (ho : s.ownerTxt = .dma) (he : s.chTel.err ≠ .none) :
    exec .tele s = .next
      { s with
        pend := { s.pend with tele := false }, ownerTxt := .cpu, halted := true, cause := errCause s.chTel.err,
        curPrio := Config.prio (.irq .tele), stack := [] } :=
  taskStep_halt (fs := teleSections) h (runSections_halt (reclaimReport_err (s := enterTask .tele s) ho he) rfl) rfl

theorem exec_tele_busy (h : Dispatchable .tele s) (ho : s.ownerTxt = .dma) (hd : s.chTel.done = false)
    (he : s.chTel.err = .none) :
    exec .tele s = .next
      { s with
        pend := { s.pend with tele := false }, halted := true, cause := .submitBusy,
        curPrio := Config.prio (.irq .tele), stack := [] } :=
  taskStep_halt (fs := teleSections) h
    (runSections_halt (reclaimReport_leaving (s := enterTask .tele s) ho hd he) rfl) rfl

end Sys2Proof.Proofs
end

section
/-! Every trace step from a state of the invariant is refused or leads to a state of the invariant, operation by
operation (10_state.md R41, 60_exceptions.md R296). -/

namespace Sys2Proof.Proofs

open Sys2Proof Sys2Proof.Machine Sys2Proof.Laws

variable {s : State}

/-- An answer that is no fault, and whose next state, if it has one, is a state of the invariant. -/
def SafeAnswer : Result → Prop
  | .next s => Inv s
  | .fault _ => False
  | .refused _ => True

theorem safe_next {r : Result} {s' : State} (h : r = .next s') (inv : Inv s') : SafeAnswer r := h ▸ inv

theorem safe_refused (q : Refusal) : SafeAnswer (.refused q) := trivial

theorem safe_ite {p : Prop} [Decidable p] {r q : Result} (hr : p → SafeAnswer r) (hq : ¬ p → SafeAnswer q) :
    SafeAnswer (if p then r else q) := by
  by_cases h : p
  · rw [if_pos h]; exact hr h
  · rw [if_neg h]; exact hq h

theorem safe_whenRunning {k : Result} (h : s.halted = false → SafeAnswer k) : SafeAnswer (whenRunning s k) :=
  safe_ite (fun _ => safe_refused _) fun hr => h (by simpa using hr)

/-- A task is refused where it is not dispatchable. -/
theorem safe_taskStep {t : Irq} {fs : List (State → Result)} (inv : Inv s)
    (h : Dispatchable t s → SafeAnswer (taskStep t fs s)) : SafeAnswer (taskStep t fs s) := by
  have hm := inv.mode.sectioned
  rcases whenDispatchable_cases t s with ⟨⟨hr, hp, hu, hf⟩, _⟩ | ⟨_, q, e⟩
  · exact h ⟨hr, hp, hu, hf, hm⟩
  · rw [taskStep_whole hm, wholeRun, e]
    exact safe_refused q

theorem owner_eq_cpu {o : Owner} (h : o ≠ .dma) : o = .cpu := by
  cases o with
  | cpu => rfl
  | dma => exact absurd rfl h

/-! ## The tasks -/

/-- `RXC` takes a frame only from a finished or failed transfer, so it reads 72 written bytes (42_frame_pipeline.md
R181, R187). -/
theorem rxc_safe (inv : Inv s) : SafeAnswer (exec .rxc s) := by
  refine safe_taskStep inv fun hd => ?_
  have hr := hd.running
  have pip := inv.pipeline hr
  have tr := inv.transfers hr
  by_cases he : s.chRx.err = .none
  · have hdone : s.chRx.done = true := (tr.rxPend.1 hd.pending).resolve_right (not_not_intro he)
    obtain ⟨p, hp⟩ := readRange_of_writtenTo (tr.rxDone.1 hdone ▸ tr.rxWritten)
    cases hb : s.busy
    · obtain ⟨_, ho, hl, _⟩ := pip.idle hb
      exact safe_next (exec_rxc_accepts hd hb tr.rxArmed hdone he hp) (inv_of_control_eq inv hr rfl
        { inv.memory with rgb := writeRange_ok inv.memory.rgb (by rw [readRange_length hp]; decide) }
        ⟨Nat.zero_le _, inv.counts.2⟩
        { pip with idle := nofun, oneHot := fun _ => .inl ⟨rfl, ho, hl⟩ }
        { tr with
          rxArmed := rfl
          rxDone := by simp [idleChannel, Config.frameBytes]
          rxPend := by simp [idleChannel]
          rxWritten := nofun
          rgbWritten := fun _ =>
            writtenTo_of_readRange (readRange_writeRange_of_length _ _ _ _ (readRange_length hp))
          ledFilled := fun h => nomatch ho.symm.trans h })
    · exact safe_next (exec_rxc_drops hd hb tr.rxArmed hdone he) (inv_of_control_eq inv hr rfl
        { inv.memory with } ⟨Nat.zero_le _, inv.counts.2⟩ { pip with }
        { tr with
          rxArmed := rfl
          rxDone := by simp [idleChannel, Config.frameBytes]
          rxPend := by simp [idleChannel]
          rxWritten := nofun })
  · exact safe_next (exec_rxc_error hd tr.rxArmed he) (inv_halt inv (errCause_reachable he) _ _ _ _ _ _)

/-- `FSTART` runs only while the pipeline is encoding, so `RGB` is written and the LED buffer is the CPU's
(42_frame_pipeline.md R182). -/
theorem fstart_safe (inv : Inv s) : SafeAnswer (exec .fstart s) := by
  refine safe_taskStep inv fun hd => ?_
  have hr := hd.running
  have pip := inv.pipeline hr
  have tr := inv.transfers hr
  obtain ⟨hb, ho, hl⟩ := encoding_of_fstart pip hd.pending
  have hpl := not_ledc_of_cpu pip ho
  obtain ⟨p, hp⟩ := readRange_of_writtenTo (tr.rgbWritten hb)
  exact safe_next (exec_fstart_fills hd ho hp) (inv_of_control_eq inv hr rfl
    { inv.memory with txled := writeRange_ok inv.memory.txled (by rw [enc_length]; decide) }
    ⟨inv.counts.1, Nat.zero_le _, inv.counts.2.2⟩
    { pip with
      idle := by simp [hb]
      oneHot := fun _ => .inr (.inl ⟨rfl, rfl, hl⟩)
      ledc := by simp [hpl, idleChannel]
      ledcErr := by simp [idleChannel] }
    { tr with
      ledDone := by simp [idleChannel, Config.ledBufBytes]
      ledFilled := fun _ => ⟨p, hp, readRange_writeRange_of_length _ _ _ _ (enc_length p)⟩ })

/-- `LEDC` runs only on a refresh that is over: it hands over to the latch timer, or halts on the error
(42_frame_pipeline.md R183). -/
theorem ledc_safe (inv : Inv s) : SafeAnswer (exec .ledc s) := by
  refine safe_taskStep inv fun hd => ?_
  have hr := hd.running
  have pip := inv.pipeline hr
  have tr := inv.transfers hr
  obtain ⟨ho, hdone⟩ := refresh_over_of_ledc pip hd.pending
  obtain ⟨hb, hf, hl⟩ := transmitting_of_dma pip ho
  obtain ⟨_, hpl⟩ := quiet_of_stopped pip hl
  by_cases he : s.chLed.err = .none
  · exact safe_next (exec_ledc_done hd ho (hdone he) he) (inv_of_control_eq inv hr rfl
      { inv.memory with } inv.counts
      { pip with
        idle := by simp [hb]
        oneHot := fun _ => .inr (.inr ⟨hf, rfl, rfl⟩)
        ledc := by simp
        ledcErr := by simp
        latch := by simp [hpl]
        expired := nofun }
      { tr with ledDone := nofun, ledFilled := nofun })
  · exact safe_next (exec_ledc_error hd ho he) (inv_halt inv (errCause_reachable he) _ _ _ _ _ _)

/-- `LATCH` runs only while the pipeline is latching and leaves it idle (42_frame_pipeline.md R184). -/
theorem latch_safe (inv : Inv s) : SafeAnswer (exec .latch s) := by
  refine safe_taskStep inv fun hd => ?_
  have hr := hd.running
  have pip := inv.pipeline hr
  have tr := inv.transfers hr
  obtain ⟨hf, ho⟩ := latching_of_running pip (pip.latch.1 hd.pending).1
  have hpl := not_ledc_of_cpu pip ho
  exact safe_next (exec_latch_ends hd) (inv_of_control_eq inv hr rfl
    { inv.memory with } inv.counts
    { pip with
      idle := fun _ => ⟨hf, ho, rfl, hpl, rfl⟩
      oneHot := nofun
      latch := by simp
      expired := nofun }
    { tr with rgbWritten := nofun })

/-- `TELE` starts a report where the buffer is free and halts where the last one is leaving or has failed
(44_telemetry.md R251). -/
theorem tele_safe (inv : Inv s) : SafeAnswer (exec .tele s) := by
  refine safe_taskStep inv fun hd => ?_
  have hr := hd.running
  have pip := inv.pipeline hr
  have tr := inv.transfers hr
  have reports (hf : s.ownerTxt = .cpu ∨ (s.chTel.done = true ∧ s.chTel.err = .none)) :
      SafeAnswer (exec .tele s) :=
    safe_next (exec_tele_reports hd hf) (inv_of_control_eq inv hr rfl
      { inv.memory with txt := writeRange_ok inv.memory.txt (by rw [ser_length]; decide) }
      ⟨inv.counts.1, inv.counts.2.1, Nat.zero_le _⟩ { pip with }
      { tr with
        telDone := by simp [idleChannel, Config.teleBytes]
        telFilled := fun _ => ⟨_, readRange_writeRange_of_length _ _ _ _ (ser_length _)⟩ })
  by_cases ho : s.ownerTxt = .dma
  · by_cases he : s.chTel.err = .none
    · cases hdone : s.chTel.done
      · exact safe_next (exec_tele_busy hd ho hdone he) (inv_halt inv (by decide) _ _ _ _ _ _)
      · exact reports (.inr ⟨hdone, he⟩)
    · exact safe_next (exec_tele_error hd ho he) (inv_halt inv (errCause_reachable he) _ _ _ _ _ _)
  · exact reports (.inl (owner_eq_cpu ho))

/-- `IDLE` restores the priority and writes counters only (44_telemetry.md R255). -/
theorem idle_safe (inv : Inv s) (d : U32) : SafeAnswer (exec (.idle d) s) := by
  refine safe_whenRunning fun hr => safe_ite (fun _ => safe_refused _) fun _ =>
    safe_ite (fun _ => safe_refused _) fun _ => ?_
  have h : atomicSection .sleepCycles (measuredWait d) s =
      .next ((s.passCycles d).addSleep (s.cycleCounter + d - s.cycleCounter)) := by
    simp [atomicSection, measuredWait, waitForInterrupt, hr, State.addSleep, State.passCycles]
  exact safe_next h (inv_unread inv (s.cycleCounter + d) (s.sleepCycles + _) s.trace s.pend.tele)

/-! ## The beats and the environment's moves -/

/-- A byte goes to the next place of the armed receiver, or flags an overrun of it (41_dma_buffers.md R153). -/
theorem rxbyte_safe (inv : Inv s) (v : Byte) : SafeAnswer (exec (.rxbyte v) s) := by
  refine safe_whenRunning fun hr => ?_
  have pip := inv.pipeline hr
  have tr := inv.transfers hr
  cases hf : s.inFlight .rx .rx
  · refine safe_next (rxBeat_lost v hf) ?_
    by_cases he : s.chRx.err = .none
    · rw [if_pos he]
      exact inv_of_control_eq inv hr rfl { inv.memory with } inv.counts { pip with }
        { tr with rxPend := by simp }
    · rw [if_neg he]; exact inv
  · obtain ⟨_, hd, he⟩ := inFlight_iff.1 hf
    simp only [chanDone_rx, chanErr_rx] at hd he
    have hc : s.chRx.cnt.toNat < 72 := count_lt inv.counts.1 tr.rxDone hd
    have hn : (s.chRx.cnt + 1).toNat = s.chRx.cnt.toNat + 1 := cnt_succ (by omega)
    have hp : s.pend.rxc = false := by simpa [hd, he] using tr.rxPend
    exact safe_next (rxBeat_store v hf hc) (inv_of_control_eq inv hr rfl
      { inv.memory with rx := writeRange_ok inv.memory.rx hc } ⟨hn.trans_le hc, inv.counts.2⟩ { pip with }
      { tr with
        rxDone := done_advance_iff hn
        rxPend := by simp [hp]
        rxWritten := hn ▸ writtenTo_writeRange_next tr.rxWritten v })

/-- A beat of a refresh reads a cell of the encoded frame (41_dma_buffers.md R154). -/
theorem ledcell_safe (inv : Inv s) : SafeAnswer (exec .ledcell s) := by
  refine safe_whenRunning fun hr => ?_
  have pip := inv.pipeline hr
  have tr := inv.transfers hr
  cases hf : s.inFlight .txled .led
  · rw [ledBeat, hf]; exact safe_refused _
  · obtain ⟨ho, hd, he⟩ := inFlight_iff.1 hf
    simp only [owner_txled, chanDone_led, chanErr_led] at ho hd he
    have hc : s.chLed.cnt.toNat < 577 := count_lt inv.counts.2.1 (tr.ledDone ho) hd
    have hn : (s.chLed.cnt + 1).toNat = s.chLed.cnt.toNat + 1 := cnt_succ (by omega)
    obtain ⟨p, _, hp⟩ := tr.ledFilled ho
    obtain ⟨d, hv⟩ := read_isSome_of_readRange hp hc
    exact safe_next ((ledBeat_send hf hc hv).trans (congrArg _ (sendCell_eq d hf))) (inv_of_control_eq inv hr rfl
      { inv.memory with } ⟨inv.counts.1, hn.trans_le hc, inv.counts.2.2⟩
      { pip with
        idle := by simp [(transmitting_of_dma pip ho).1]
        ledc := by simp [not_ledc_of_inFlight pip hd he, ho]
        ledcErr := by simp }
      { tr with ledDone := fun _ => done_advance_iff hn })

/-- A beat of a report reads a byte of it (41_dma_buffers.md R155). -/
theorem telbyte_safe (inv : Inv s) : SafeAnswer (exec .telbyte s) := by
  refine safe_whenRunning fun hr => ?_
  have tr := inv.transfers hr
  cases hf : s.inFlight .txt .tel
  · rw [telBeat, hf]; exact safe_refused _
  · obtain ⟨ho, hd, _⟩ := inFlight_iff.1 hf
    simp only [owner_txt, chanDone_tel] at ho hd
    have hc : s.chTel.cnt.toNat < 13 := count_lt inv.counts.2.2 (tr.telDone ho) hd
    have hn : (s.chTel.cnt + 1).toNat = s.chTel.cnt.toNat + 1 := cnt_succ (by omega)
    obtain ⟨x, hx⟩ := tr.telFilled ho
    obtain ⟨v, hv⟩ := read_isSome_of_readRange hx hc
    exact safe_next ((telBeat_send hf hc hv).trans (congrArg _ (sendByte_eq v hf))) (inv_of_control_eq inv hr rfl
      { inv.memory with } ⟨inv.counts.1, inv.counts.2.1, hn.trans_le hc⟩
      { inv.pipeline hr with } { tr with telDone := fun _ => done_advance_iff hn })

/-- The timer signals while it runs, so only in a latching pipeline (42_frame_pipeline.md R185). -/
theorem latchexp_safe (inv : Inv s) : SafeAnswer (exec .latchexp s) := by
  refine safe_whenRunning fun hr => safe_ite (fun hl => ?_) fun _ => safe_refused _
  have pip := inv.pipeline hr
  have hrun : s.latchRunning = true := (Bool.and_eq_true_iff.1 hl).1
  have hb := busy_of_stage pip (.inr (.inr hrun))
  exact safe_next rfl (inv_of_control_eq inv hr rfl { inv.memory with } inv.counts
    { pip with
      idle := fun h => nomatch hb.symm.trans h
      latch := by simp [hrun]
      expired := fun _ => hrun }
    { inv.transfers hr with })

/-- A transfer error flags a transfer in flight, whose interrupt then means the error (41_dma_buffers.md R156). -/
theorem xfererr_safe (inv : Inv s) (ch : Channel) (kind : XferErr) : SafeAnswer (exec (.xfererr ch kind) s) := by
  refine safe_whenRunning fun hr => safe_ite (fun _ => safe_refused _) fun hk =>
    safe_ite (fun hf => ?_) fun _ => safe_refused _
  have pip := inv.pipeline hr
  have tr := inv.transfers hr
  have hkind : kind ≠ .none := by
    rintro rfl
    cases ch <;> simp [kindFits] at hk
  obtain ⟨ho, hd, he⟩ := inFlight_iff.1 hf
  cases ch with
  | rx =>
    exact safe_next rfl (inv_of_control_eq inv hr rfl { inv.memory with } inv.counts { pip with }
      { tr with rxPend := iff_of_true rfl (.inr hkind) })
  | led =>
    have hb : s.busy = true := (transmitting_of_dma pip ho).1
    exact safe_next rfl (inv_of_control_eq inv hr rfl { inv.memory with } inv.counts
      { pip with
        idle := fun h => nomatch hb.symm.trans h
        ledc := fun h => absurd h hkind
        ledcErr := fun _ => iff_of_true rfl ho }
      { tr with })
  | tel =>
    exact safe_next rfl (inv_of_control_eq inv hr rfl { inv.memory with } inv.counts { pip with } { tr with })

/-! ## The step -/

/-- No operation that may stand at the front of the trace faults or leaves the invariant. -/
theorem exec_safe {i : Instr} (inv : Inv s) (hi : i.mayStandInTrace = true ∨ i.cls = .reserved) :
    SafeAnswer (exec i s) := by
  cases i with
  | idle d => exact idle_safe inv d
  | tele => exact tele_safe inv
  | rxc => exact rxc_safe inv
  | fstart => exact fstart_safe inv
  | ledc => exact ledc_safe inv
  | latch => exact latch_safe inv
  | reset c0 => exact inv_resetTo c0 inv.mode.sectioned inv.mode.calls
  | rxbyte v => exact rxbyte_safe inv v
  | ledcell => exact ledcell_safe inv
  | telbyte => exact telbyte_safe inv
  | latchexp => exact latchexp_safe inv
  | teltick => exact safe_whenRunning fun _ => inv_unread inv s.cycleCounter s.sleepCycles s.trace true
  | cycadv n => exact safe_whenRunning fun _ => inv_unread inv (s.cycleCounter + n) s.sleepCycles s.trace s.pend.tele
  | xfererr ch kind => exact xfererr_safe inv ch kind
  | reserved06 => exact safe_refused _
  | reserved07 => exact safe_refused _
  | reserved0F => exact safe_refused _
  | reserved1E => exact safe_refused _
  | reserved1F => exact safe_refused _
  | _ => simp [Instr.mayStandInTrace, Instr.cls] at hi

/-- A step takes its operation off the trace, which the invariant does not read. -/
theorem exec_fetched_safe {i : Instr} (inv : Inv s) (rest : List Byte)
    (hi : i.mayStandInTrace = true ∨ i.cls = .reserved) : SafeAnswer (exec i { s with trace := rest }) :=
  exec_safe (inv_unread inv s.cycleCounter s.sleepCycles rest s.pend.tele) hi

/-- Settles O57: every operation of a trace that answers next from a state of the invariant answers one. -/
theorem stepKeepsTheInvariant : Obligations.StepKeepsTheInvariant := by
  unfold Obligations.StepKeepsTheInvariant
  intro s s' inv h
  obtain ⟨i, rest, _, hi, hs⟩ := step_eq_next inv.mode.calls h
  have safe := exec_fetched_safe inv rest hi
  rwa [hs] at safe

/-- Settles O59: no operation of a trace faults from a state of the invariant. -/
theorem noStepFaults : Obligations.NoStepFaults := by
  unfold Obligations.NoStepFaults
  intro s f inv h
  obtain ⟨i, rest, _, hi, hs⟩ := step_eq_fault inv.mode.calls h
  have safe := exec_fetched_safe inv rest hi
  rwa [hs] at safe

/-- Settles O2: the state after reset is what `RESET` leaves of it, and nothing has been sent yet. -/
theorem resetMeetsTheInvariants : Obligations.ResetMeetsTheInvariants := by
  unfold Obligations.ResetMeetsTheInvariants
  refine ⟨inv_resetTo (s := State.reset) Config.powerUpCycles rfl rfl,
    ⟨⟨0, rfl⟩, fun _ => rfl, fun _ => nofun, fun _ _ => rfl⟩,
    [], zeroSnapshot, 0, by decide, rfl, fun _ _ => rfl, fun _ => nofun⟩

end Sys2Proof.Proofs
end

section
/-! Which operation of a trace writes `busy`, the four buffers and the four counters (10_state.md R21 to R28). -/

namespace Sys2Proof.Proofs

open Sys2Proof Sys2Proof.Machine Sys2Proof.Laws

/-- `busy`, the buffers and the counters. -/
def sharedRecord (s : State) :
    Bool × (Memory × Memory × Memory × Memory) × U32 × U32 × Byte × U16 :=
  (s.busy, (s.bufRgb, s.bufTxled, s.bufTxt, s.bufRx), s.cycleCounter, s.sleepCycles, s.frames, s.contextSwitches)

/-- From `s` to `s'`, `busy`, the buffers and the counters changed only where `i` may write them. -/
structure WritesNamed (i : Instr) (s s' : State) : Prop where
  sets : s'.busy = true → s.busy = true ∨ i = .rxc
  clears : s.busy = true → s'.busy = true ∨ i = .latch
  rgb : s'.bufRgb = s.bufRgb ∨ (i = .rxc ∧ s.busy = false)
  txled : s'.bufTxled = s.bufTxled ∨ i = .fstart
  txt : s'.bufTxt = s.bufTxt ∨ i = .tele
  rx : s'.bufRx = s.bufRx ∨ ∃ b, i = .rxbyte b
  cycles : s'.cycleCounter = s.cycleCounter ∨ (∃ n, i = .cycadv n) ∨ ∃ d, i = .idle d
  sleep : s'.sleepCycles = s.sleepCycles ∨ i = .tele ∨ ∃ d, i = .idle d
  frames : s'.frames = s.frames ∨ i = .latch ∨ i = .tele
  switches : s'.contextSwitches = s.contextSwitches ∨ i = .rxc ∨ i = .fstart ∨ i = .ledc ∨ i = .latch ∨ i = .tele

variable {i : Instr}

/-! ## The relation -/

/-- What writes none of the fields is allowed to every operation. -/
theorem writesNamed_of_same {s s' : State} (h : sharedRecord s' = sharedRecord s) : WritesNamed i s s' := by
  simp only [sharedRecord, Prod.mk.injEq] at h
  obtain ⟨hb, ⟨hrgb, htxled, htxt, hrx⟩, hc, hs, hf, hw⟩ := h
  exact ⟨fun h => .inl (hb ▸ h), fun h => .inl (hb ▸ h), .inl hrgb, .inl htxled, .inl htxt, .inl hrx, .inl hc,
    .inl hs, .inl hf, .inl hw⟩

theorem writesNamed_refl (s : State) : WritesNamed i s s := writesNamed_of_same rfl

/-- One field after two operations in order: kept by both, or one of them may write it. -/
theorem same_or_trans {α : Type} {a b c : α} {p : Prop} (h : b = a ∨ p) (k : c = b ∨ p) : c = a ∨ p :=
  h.elim (fun h => k.imp_left (·.trans h)) .inr

/-- `RGB` is written by `RXC` from an idle pipeline, and nothing else `RXC` does makes it idle. -/
theorem writesNamed_trans (a b c : State) (h : WritesNamed i a b) (k : WritesNamed i b c) : WritesNamed i a c where
  sets hc := (k.sets hc).elim h.sets .inr
  clears ha := (h.clears ha).elim k.clears .inr
  rgb := by
    refine same_or_trans h.rgb (k.rgb.imp_right fun ⟨hi, hb⟩ => ⟨hi, ?_⟩)
    by_contra ha
    rcases h.clears (by simpa using ha) with hb' | hi'
    · simp [hb] at hb'
    · cases hi.symm.trans hi'
  txled := same_or_trans h.txled k.txled
  txt := same_or_trans h.txt k.txt
  rx := same_or_trans h.rx k.rx
  cycles := same_or_trans h.cycles k.cycles
  sleep := same_or_trans h.sleep k.sleep
  frames := same_or_trans h.frames k.frames
  switches := same_or_trans h.switches k.switches

/-! ## Updates allowed to every operation -/

theorem writesNamed_halt (s : State) (c : Cause) :
    WritesNamed i s { s with halted := true, cause := c, stack := [] } := writesNamed_of_same rfl

theorem writesNamed_setOwner (s : State) (b : DmaBuf) (o : Owner) : WritesNamed i s (s.setOwner b o) :=
  writesNamed_of_same (by simp [sharedRecord])

theorem writesNamed_updChan (s : State) (c : Channel) (f : ∀ width, DmaChannel width → DmaChannel width) :
    WritesNamed i s (s.updChan c f) := writesNamed_of_same (by simp [sharedRecord])

theorem writesNamed_handOver (s : State) (b : DmaBuf) (c : Channel) :
    WritesNamed i s ((s.setOwner b .dma).restart c) :=
  writesNamed_trans _ _ _ (writesNamed_setOwner s b .dma) (writesNamed_updChan _ c _)

theorem writesNamed_sendCell (s : State) (d : Byte) : WritesNamed i s (sendCell d s) :=
  writesNamed_of_same (by unfold sendCell; split <;> rfl)

theorem writesNamed_xfererr (s : State) (ch : Channel) (kind : XferErr) :
    WritesNamed i s (raiseChannel ch (s.flagError ch kind)) :=
  writesNamed_of_same (by cases ch <;> rfl)

theorem releaseOrRaise_writesNamed (b : DmaBuf) (c : Channel) : Keeps (WritesNamed i) (releaseOrRaise b c) :=
  keeps_releaseOrRaise writesNamed_trans writesNamed_halt c fun s => writesNamed_setOwner s b .cpu

theorem submitOrRaise_writesNamed (b : DmaBuf) (c : Channel) : Keeps (WritesNamed i) (submitOrRaise b c) :=
  keeps_submitOrRaise writesNamed_halt fun s => writesNamed_handOver s b c

/-! ## The tasks -/

/-- A task run writes what its sections may write. -/
theorem taskStep_writesNamed {t : Irq} {fs : List (State → Result)} (hfs : ∀ f ∈ fs, Keeps (WritesNamed i) f)
    {s s' : State} (h : taskStep t fs s = .next s') : WritesNamed i s s' :=
  keeps_taskStep writesNamed_refl writesNamed_trans (fun _ => writesNamed_of_same rfl)
    (fun _ _ _ => writesNamed_of_same rfl) hfs s s' (taskStep_next_running h) h

/-- `[s1]` of the pipeline tasks. -/
theorem countRun_writesNamed (hi : i = .rxc ∨ i = .fstart ∨ i = .ledc ∨ i = .latch ∨ i = .tele) :
    Keeps (WritesNamed i) countRun := keeps_next fun s => { writesNamed_refl s with switches := .inr hi }

theorem takeFrame_writesNamed : Keeps (WritesNamed .rxc) takeFrame :=
  keeps_takeFrame writesNamed_refl writesNamed_halt fun s _ hb _ =>
    { writesNamed_refl s with
      sets := fun _ => .inr rfl
      clears := fun _ => .inl rfl
      rgb := .inr ⟨rfl, hb⟩ }

theorem rxcSections_writeNamed : ∀ f ∈ rxcSections, Keeps (WritesNamed .rxc) f := by
  simp only [rxcSections, List.forall_mem_cons]
  exact ⟨countRun_writesNamed (by simp), releaseOrRaise_writesNamed _ _, takeFrame_writesNamed,
    submitOrRaise_writesNamed _ _, List.forall_mem_nil _⟩

theorem fstartSections_writeNamed : ∀ f ∈ fstartSections, Keeps (WritesNamed .fstart) f := by
  simp only [fstartSections, List.forall_mem_cons]
  exact ⟨countRun_writesNamed (by simp),
    keeps_fillLedBuffer writesNamed_halt fun s _ _ => { writesNamed_refl s with txled := .inr rfl },
    submitOrRaise_writesNamed _ _, List.forall_mem_nil _⟩

theorem ledcSections_writeNamed : ∀ f ∈ ledcSections, Keeps (WritesNamed .ledc) f := by
  simp only [ledcSections, List.forall_mem_cons]
  exact ⟨countRun_writesNamed (by simp), releaseOrRaise_writesNamed _ _,
    keeps_next fun _ => writesNamed_of_same rfl, List.forall_mem_nil _⟩

theorem latchSections_writeNamed : ∀ f ∈ latchSections, Keeps (WritesNamed .latch) f := by
  simp only [latchSections, List.forall_mem_cons]
  exact ⟨countRun_writesNamed (by simp), keeps_next fun _ => writesNamed_of_same rfl,
    keeps_next fun s => { writesNamed_refl s with sets := nofun, clears := fun _ => .inr rfl },
    keeps_next fun s => { writesNamed_refl s with frames := .inr (.inl rfl) }, List.forall_mem_nil _⟩

theorem teleSections_writeNamed : ∀ f ∈ teleSections, Keeps (WritesNamed .tele) f := by
  have snap (v : State → Snapshot) : Keeps (WritesNamed .tele) fun s => .next (s.setLocalSnap (v s)) :=
    keeps_next fun s => writesNamed_of_same (by simp [sharedRecord])
  simp only [teleSections, List.forall_mem_cons]
  exact ⟨keeps_reclaimReport writesNamed_refl writesNamed_trans writesNamed_halt
      fun s => writesNamed_setOwner s .txt .cpu,
    snap _, snap _, snap _, snap _,
    keeps_sendReport writesNamed_trans writesNamed_halt
      (fun s _ _ => { writesNamed_refl s with txt := .inr rfl }) fun s => writesNamed_handOver s .txt .tel,
    keeps_next fun s => { writesNamed_refl s with switches := by simp },
    keeps_next fun s => { writesNamed_refl s with frames := .inr (.inr rfl) },
    keeps_next fun s => { writesNamed_refl s with sleep := .inr (.inl rfl) }, List.forall_mem_nil _⟩

/-! ## The other operations of a trace -/

/-- `IDLE` waits and adds up what it waited (44_telemetry.md R255). -/
theorem idleSection_writesNamed (d : U32) :
    Keeps (WritesNamed (.idle d)) (atomicSection .sleepCycles (measuredWait d)) := by
  refine keeps_atomicSection writesNamed_trans (fun _ _ => writesNamed_of_same rfl) _ fun s s' _ h => ?_
  obtain ⟨s1, ⟨⟩, ⟨_, rfl⟩ | ⟨_, ⟨⟩⟩⟩ := andThen_eq_next.1 h <;>
    exact { writesNamed_refl s with cycles := .inr (.inr ⟨d, rfl⟩), sleep := .inr (.inr ⟨d, rfl⟩) }

theorem rxBeat_writesNamed (v : Byte) : Keeps (WritesNamed (.rxbyte v)) (rxBeat v) :=
  keeps_rxBeat writesNamed_refl (fun s _ _ _ => { writesNamed_refl s with rx := .inr ⟨v, rfl⟩ }) v

/-- Every operation of a trace but `RESET` writes at most its own. -/
theorem exec_writesNamed {s s' : State} (hi : i.mayStandInTrace = true) (hreset : ∀ c0, i ≠ .reset c0)
    (h : exec i s = .next s') : WritesNamed i s s' := by
  cases i with
  | idle d =>
    obtain ⟨hr, h⟩ := whenRunning_eq_next.1 h
    obtain ⟨_, h⟩ := require_not_eq_next.1 h
    obtain ⟨_, h⟩ := require_not_eq_next.1 h
    exact idleSection_writesNamed d s s' hr h
  | tele => exact taskStep_writesNamed teleSections_writeNamed h
  | rxc => exact taskStep_writesNamed rxcSections_writeNamed h
  | fstart => exact taskStep_writesNamed fstartSections_writeNamed h
  | ledc => exact taskStep_writesNamed ledcSections_writeNamed h
  | latch => exact taskStep_writesNamed latchSections_writeNamed h
  | reset c0 => exact absurd rfl (hreset c0)
  | rxbyte v => exact keeps_whenRunning (rxBeat_writesNamed v) h
  | ledcell => exact keeps_whenRunning (keeps_ledBeat writesNamed_sendCell) h
  | telbyte => exact keeps_whenRunning (keeps_telBeat fun _ _ => writesNamed_of_same rfl) h
  | latchexp =>
    obtain ⟨_, h⟩ := whenRunning_eq_next.1 h
    obtain ⟨_, ⟨⟩⟩ := require_eq_next.1 h
    exact writesNamed_of_same rfl
  | teltick =>
    obtain ⟨_, ⟨⟩⟩ := whenRunning_eq_next.1 h
    exact writesNamed_of_same rfl
  | cycadv n =>
    obtain ⟨_, ⟨⟩⟩ := whenRunning_eq_next.1 h
    exact { writesNamed_refl s with cycles := .inr (.inl ⟨n, rfl⟩) }
  | xfererr ch kind =>
    obtain ⟨_, h⟩ := whenRunning_eq_next.1 h
    obtain ⟨_, h⟩ := require_not_eq_next.1 h
    obtain ⟨_, ⟨⟩⟩ := require_eq_next.1 h
    exact writesNamed_xfererr s ch kind
  | _ => simp [Instr.mayStandInTrace, Instr.cls] at hi

/-- Settles O55: the parts of each operation write what the operation may, and the relation composes. -/
theorem onlyTheNamedOperationsWrite : Obligations.OnlyTheNamedOperationsWrite := by
  unfold Obligations.OnlyTheNamedOperationsWrite
  intro i s s' hi hreset _ h
  have w := exec_writesNamed hi hreset h
  exact ⟨w.sets, w.clears, w.rgb, w.txled, w.txt, w.rx, w.cycles, w.sleep, w.frames, w.switches⟩

end Sys2Proof.Proofs
end

section
/-! Which bytes of the four spaces an operation changes (20_memory.md R67, 10_state.md R26, R28). -/

namespace Sys2Proof.Proofs

open Sys2Proof Sys2Proof.Machine Sys2Proof.Laws

/-- From `s` to `s'`, every byte of the four spaces outside the area `w` reads as before. -/
def ChangesOnly (w : Buf → Nat → Bool) (s s' : State) : Prop :=
  ∀ (b : Buf) (a : Nat), w b a = false → (s'.buf b).read a = (s.buf b).read a

variable {w : Buf → Nat → Bool} {s s' : State}

/-! ## The relation -/

theorem changesOnly_of_sameBuffers (h : s'.buf = s.buf) : ChangesOnly w s s' := fun b a _ => by rw [h]

theorem changesOnly_refl (s : State) : ChangesOnly w s s := fun _ _ _ => rfl

theorem changesOnly_trans (a b c : State) (h : ChangesOnly w a b) (k : ChangesOnly w b c) : ChangesOnly w a c :=
  fun d i hw => (k d i hw).trans (h d i hw)

theorem changesOnly_mono {w' : Buf → Nat → Bool} (hw : ∀ b a, w b a = true → w' b a = true)
    (h : ChangesOnly w s s') : ChangesOnly w' s s' :=
  fun b a ha => h b a (Bool.eq_false_of_not_eq_true fun hb => by simp [hw b a hb] at ha)

/-- A store changes the bytes of its range. -/
theorem changesOnly_setBuf (s : State) {b : Buf} {i : Nat} {vs : List Byte}
    (hw : ∀ a, i ≤ a → a < i + vs.length → w b a = true) :
    ChangesOnly w s (s.setBuf b ((s.buf b).writeRange i vs)) := by
  intro d a ha
  rw [buf_setBuf]
  split
  · subst d
    refine read_writeRange_outside _ _ _ _ ?_
    by_contra hin
    simp [hw a (by omega) (by omega)] at ha
  · rfl

/-! ## Updates that change no byte -/

theorem changesOnly_halt (s : State) (c : Cause) :
    ChangesOnly w s { s with halted := true, cause := c, stack := [] } := changesOnly_of_sameBuffers rfl

theorem changesOnly_setOwner (s : State) (b : DmaBuf) (o : Owner) : ChangesOnly w s (s.setOwner b o) :=
  changesOnly_of_sameBuffers (funext (buf_setOwner s b o))

theorem changesOnly_updChan (s : State) (c : Channel) (f : ∀ width, DmaChannel width → DmaChannel width) :
    ChangesOnly w s (s.updChan c f) := changesOnly_of_sameBuffers (funext (buf_updChan s c f))

theorem changesOnly_handOver (s : State) (b : DmaBuf) (c : Channel) :
    ChangesOnly w s ((s.setOwner b .dma).restart c) :=
  changesOnly_trans _ _ _ (changesOnly_setOwner s b .dma) (changesOnly_updChan _ c _)

theorem changesOnly_returning (s : State) (v : Value) : ChangesOnly w s (s.returning v) :=
  changesOnly_of_sameBuffers rfl

theorem changesOnly_curPrio (s : State) (p : Nat) : ChangesOnly w s { s with curPrio := p } :=
  changesOnly_of_sameBuffers rfl

theorem changesOnly_setLocalSnap (s : State) (v : Snapshot) : ChangesOnly w s (s.setLocalSnap v) :=
  changesOnly_of_sameBuffers (by unfold State.setLocalSnap; split <;> rfl)

theorem changesOnly_sendCell (s : State) (d : Byte) : ChangesOnly w s (sendCell d s) :=
  changesOnly_of_sameBuffers (by unfold sendCell; split <;> rfl)

theorem changesOnly_sendByte (s : State) (v : Byte) : ChangesOnly w s (sendByte v s) :=
  changesOnly_of_sameBuffers rfl

/-! ## The tasks that store -/

theorem countRun_changesOnly : Keeps (ChangesOnly w) countRun := keeps_next fun _ => changesOnly_of_sameBuffers rfl

theorem releaseOrRaise_changesOnly (b : DmaBuf) (c : Channel) : Keeps (ChangesOnly w) (releaseOrRaise b c) :=
  keeps_releaseOrRaise changesOnly_trans changesOnly_halt c fun s => changesOnly_setOwner s b .cpu

theorem submitOrRaise_changesOnly (b : DmaBuf) (c : Channel) : Keeps (ChangesOnly w) (submitOrRaise b c) :=
  keeps_submitOrRaise changesOnly_halt fun s => changesOnly_handOver s b c

/-- A task run changes the bytes its sections may change. -/
theorem taskStep_changesOnly {t : Irq} {fs : List (State → Result)} (hfs : ∀ f ∈ fs, Keeps (ChangesOnly w) f)
    (h : taskStep t fs s = .next s') : ChangesOnly w s s' :=
  keeps_taskStep changesOnly_refl changesOnly_trans (fun _ => changesOnly_of_sameBuffers rfl)
    (fun _ _ _ => changesOnly_of_sameBuffers rfl) hfs s s' (taskStep_next_running h) h

/-- `RXC` stores to the working array (42_frame_pipeline.md R181). -/
theorem rxcSections_changeOnly (hw : ∀ a, a < 72 → w .rgb a = true) :
    ∀ f ∈ rxcSections, Keeps (ChangesOnly w) f := by
  simp only [rxcSections, List.forall_mem_cons]
  exact ⟨countRun_changesOnly, releaseOrRaise_changesOnly _ _,
    keeps_takeFrame changesOnly_refl changesOnly_halt fun s p _ hp =>
      changesOnly_trans _ _ _ (changesOnly_setBuf s (b := .rgb) (i := 0) (vs := p) fun a _ ha => hw a (by omega))
        (changesOnly_of_sameBuffers rfl),
    submitOrRaise_changesOnly _ _, List.forall_mem_nil _⟩

/-- `FSTART` stores to the LED buffer (42_frame_pipeline.md R182). -/
theorem fstartSections_changeOnly (hw : ∀ a, a < 577 → w .txled a = true) :
    ∀ f ∈ fstartSections, Keeps (ChangesOnly w) f := by
  simp only [fstartSections, List.forall_mem_cons]
  exact ⟨countRun_changesOnly,
    keeps_fillLedBuffer changesOnly_halt fun s p hp =>
      changesOnly_setBuf s (b := .txled) fun a _ ha => hw a (by omega),
    submitOrRaise_changesOnly _ _, List.forall_mem_nil _⟩

/-- `TELE` stores to the report buffer (44_telemetry.md R251). -/
theorem teleSections_changeOnly (hw : ∀ a, a < 13 → w .txt a = true) :
    ∀ f ∈ teleSections, Keeps (ChangesOnly w) f := by
  have snap (v : State → Snapshot) : Keeps (ChangesOnly w) fun s => .next (s.setLocalSnap (v s)) :=
    keeps_next fun s => changesOnly_setLocalSnap s (v s)
  simp only [teleSections, List.forall_mem_cons]
  exact ⟨keeps_reclaimReport changesOnly_refl changesOnly_trans changesOnly_halt
      fun s => changesOnly_setOwner s .txt .cpu,
    snap _, snap _, snap _, snap _,
    keeps_sendReport changesOnly_trans changesOnly_halt
      (fun s p hp => changesOnly_setBuf s (b := .txt) fun a _ ha => hw a (by omega))
      fun s => changesOnly_handOver s .txt .tel,
    keeps_next fun _ => changesOnly_of_sameBuffers rfl, keeps_next fun _ => changesOnly_of_sameBuffers rfl,
    keeps_next fun _ => changesOnly_of_sameBuffers rfl, List.forall_mem_nil _⟩

/-! ## Bytes on the serial input (41_dma_buffers.md R153) -/

/-- Where the next `n` bytes received go: from the count on if a transfer is in flight, else nowhere. -/
def receiveArea (n : Nat) (s : State) (b : Buf) (a : Nat) : Bool :=
  b == .rx && s.inFlight .rx .rx && decide (s.chRx.cnt.toNat ≤ a ∧ a < s.chRx.cnt.toNat + n)

theorem receiveArea_eq_true {n : Nat} {b : Buf} {a : Nat} :
    receiveArea n s b a = true ↔
      b = .rx ∧ s.inFlight .rx .rx = true ∧ s.chRx.cnt.toNat ≤ a ∧ a < s.chRx.cnt.toNat + n := by
  simp [receiveArea, and_assoc]

theorem storedTo_rxbyte_eq_receiveArea (v : Byte) (s : State) : storedTo (.rxbyte v) s = receiveArea 1 s := by
  funext b a
  have one : s.chRx.cnt.toNat ≤ a ∧ a < s.chRx.cnt.toNat + 1 ↔ a = s.chRx.cnt.toNat := by omega
  simp only [storedTo_rxbyte, receiveArea, one, beq_eq_decide]

/-- A byte is stored only inside the buffer (log 14). -/
theorem rxBeat_next_count {v : Byte} (hf : s.inFlight .rx .rx = true) (h : rxBeat v s = .next s') :
    s.chRx.cnt.toNat < 72 := by
  by_contra hc
  have hsize : bufSize (dmaBuf .rx) ≤ s.chRx.cnt.toNat := Nat.le_of_not_lt hc
  simp [rxBeat, hf, dmaWrite, hsize] at h

/-- One byte received changes the next one of the buffer, and leaves to the `n` after it the `n` that follow. -/
theorem rxBeat_changesOnly {v : Byte} (h : rxBeat v s = .next s') (n : Nat) :
    ChangesOnly (receiveArea (n + 1) s) s s' ∧
      ∀ b a, receiveArea n s' b a = true → receiveArea (n + 1) s b a = true := by
  cases hf : s.inFlight .rx .rx
  case false =>
    rw [rxBeat_lost v hf] at h
    cases h
    refine ⟨changesOnly_of_sameBuffers (by split <;> rfl), fun b a harea => absurd harea ?_⟩
    split
    · simp [receiveArea, State.inFlight]
    · simp [receiveArea, hf]
  case true =>
    have hc : s.chRx.cnt.toNat < 72 := rxBeat_next_count hf h
    rw [rxBeat_store v hf hc] at h
    cases h
    constructor
    · refine changesOnly_trans _ _ _ (changesOnly_setBuf s (b := .rx) fun a hlo hhi => ?_)
        (changesOnly_of_sameBuffers rfl)
      have hhi : a < s.chRx.cnt.toNat + 1 := hhi
      exact receiveArea_eq_true.2 ⟨rfl, hf, hlo, by omega⟩
    · intro b a harea
      obtain ⟨hb, -, hlo, hhi⟩ := receiveArea_eq_true.1 harea
      rw [cnt_succ (by omega)] at hlo hhi
      exact receiveArea_eq_true.2 ⟨hb, hf, by omega, by omega⟩

/-- `f` stores at most the next `n` bytes received. -/
def Receives (n : Nat) (f : State → Result) : Prop :=
  ∀ s s', f s = .next s' → ChangesOnly (receiveArea n s) s s'

theorem receives_rxBeat (v : Byte) : Receives 1 (rxBeat v) := fun _ _ h => (rxBeat_changesOnly h 0).1

theorem receives_andThen {n : Nat} {k : State → Result} (v : Byte) (hk : Receives n k) :
    Receives (n + 1) fun s => andThen (rxBeat v s) k := by
  intro s s' h
  obtain ⟨s1, h1, ⟨_, rfl⟩ | ⟨_, h2⟩⟩ := andThen_eq_next.1 h
  · exact (rxBeat_changesOnly h1 n).1
  · obtain ⟨first, next⟩ := rxBeat_changesOnly h1 n
    exact changesOnly_trans _ _ _ first (changesOnly_mono next (hk s1 s' h2))

/-! ## Every operation -/

/-- An operation of a trace that may write none of the buffers keeps all four. -/
theorem sameBuffers_of_writesNamed {i : Instr} (h : WritesNamed i s s') (hrxc : i = .rxc → s.busy = true)
    (hfstart : i ≠ .fstart) (htele : i ≠ .tele) (hrx : ∀ v, i ≠ .rxbyte v) : s'.buf = s.buf := by
  funext b
  cases b
  case rgb => exact h.rgb.resolve_right fun ⟨hi, hb⟩ => by simp [hrxc hi] at hb
  case rx => exact h.rx.resolve_right fun ⟨v, hi⟩ => hrx v hi
  case txled => exact h.txled.resolve_right hfstart
  case txt => exact h.txt.resolve_right htele

/-- An operation of a trace stores where `storedTo` says. -/
theorem exec_trace_changesOnly {i : Instr} (hi : i.mayStandInTrace = true) (hreset : ∀ c0, i ≠ .reset c0)
    (h : exec i s = .next s') : ChangesOnly (storedTo i s) s s' := by
  have named := exec_writesNamed hi hreset h
  cases i with
  | rxc =>
    cases hb : s.busy
    · exact taskStep_changesOnly (rxcSections_changeOnly fun a ha => by simp [storedTo_rxc, hb, ha]) h
    · exact changesOnly_of_sameBuffers (sameBuffers_of_writesNamed named (fun _ => hb) nofun nofun nofun)
  | fstart => exact taskStep_changesOnly (fstartSections_changeOnly fun a ha => by simp [storedTo_fstart, ha]) h
  | tele => exact taskStep_changesOnly (teleSections_changeOnly fun a ha => by simp [storedTo_tele, ha]) h
  | rxbyte v =>
    rw [storedTo_rxbyte_eq_receiveArea]
    exact receives_rxBeat v s s' (whenRunning_eq_next.1 h).2
  | _ => exact changesOnly_of_sameBuffers (sameBuffers_of_writesNamed named nofun nofun nofun nofun)

theorem runBlock_changesOnly (b : Block) : Keeps (ChangesOnly w) (runBlock b) :=
  keeps_runBlock changesOnly_refl changesOnly_trans changesOnly_halt changesOnly_curPrio changesOnly_returning
    changesOnly_setOwner changesOnly_updChan (fun _ _ => changesOnly_of_sameBuffers rfl)
    (fun _ _ => changesOnly_of_sameBuffers rfl) b

theorem carryCell_changesOnly (d : Byte) : Keeps (ChangesOnly w) (carryCell d) :=
  keeps_carryCell changesOnly_sendCell d

/-- A call or data item stores nothing, a pixel apart, which is three bytes received. -/
theorem exec_call_changesOnly {i : Instr} (hi : i.mayStandInTrace = false) (h : exec i s = .next s') :
    ChangesOnly (storedTo i s) s s' := by
  have ret {v : Value} (h : (.next (s.returning v) : Result) = .next s') : ChangesOnly (storedTo i s) s s' := by
    cases h
    exact changesOnly_returning s v
  cases i with
  | access r => exact keeps_whenRunning (keeps_callAccess r changesOnly_returning) h
  | atomic r body =>
    exact keeps_whenRunning (keeps_atomicSection changesOnly_trans changesOnly_curPrio r (runBlock_changesOnly body)) h
  | submit b c =>
    exact keeps_whenRunning (keeps_callSubmit changesOnly_trans b c changesOnly_returning
      fun s => changesOnly_handOver s b c) h
  | release b c =>
    exact keeps_whenRunning (keeps_callRelease changesOnly_trans changesOnly_halt b c changesOnly_returning
      fun s => changesOnly_setOwner s b .cpu) h
  | pend t => obtain ⟨_, ⟨⟩⟩ := whenRunning_eq_next.1 h; exact changesOnly_of_sameBuffers rfl
  | wfi d => obtain ⟨_, ⟨⟩⟩ := whenRunning_eq_next.1 h; exact changesOnly_of_sameBuffers rfl
  | halt c =>
    obtain ⟨_, h⟩ := whenRunning_eq_next.1 h
    obtain ⟨_, ⟨⟩⟩ := require_not_eq_next.1 h
    exact changesOnly_halt s c
  | enc p => exact ret (require_eq_next.1 h).2
  | cell b => exact ret h
  | ser x => exact ret h
  | des q =>
    replace h : execDes q s = .next s' := h
    unfold execDes at h
    split at h
    · exact ret h
    · cases h
  | dec z => exact ret h
  | util a b =>
    replace h : execUtil a b s = .next s' := h
    unfold execUtil at h
    split at h
    · exact ret h
    · cases h
  | fPixel r g b =>
    exact receives_andThen r (receives_andThen g (receives_rxBeat b)) s s' (whenRunning_eq_next.1 h).2
  | fCell0 => exact keeps_whenRunning (carryCell_changesOnly _) h
  | fCell1 => exact keeps_whenRunning (carryCell_changesOnly _) h
  | fCellRst => exact keeps_whenRunning (carryCell_changesOnly _) h
  | fTel x =>
    obtain ⟨hr, h⟩ := whenRunning_eq_next.1 h
    obtain ⟨_, h⟩ := require_eq_next.1 h
    exact keeps_carryBytes changesOnly_refl changesOnly_trans changesOnly_sendByte _ s s' hr h
  | fLedGroup g r b =>
    obtain ⟨hr, h⟩ := whenRunning_eq_next.1 h
    obtain ⟨_, h⟩ := require_eq_next.1 h
    exact keeps_carryCells changesOnly_refl changesOnly_trans changesOnly_sendCell _ s s' hr h
  | reserved06 | reserved07 | reserved0F | reserved1E | reserved1F => cases h
  | _ => simp [Instr.mayStandInTrace, Instr.cls] at hi

/-- Settles O54: the sections, calls and beats of each operation change at most the bytes `storedTo` names. -/
theorem storesKeepEveryOtherByte : Obligations.StoresKeepEveryOtherByte := by
  unfold Obligations.StoresKeepEveryOtherByte
  intro i s s' hreset h
  cases hi : i.mayStandInTrace
  · exact exec_call_changesOnly hi h
  · exact exec_trace_changesOnly hi hreset h

end Sys2Proof.Proofs
end

section
/-! Decoding undoes encoding (30_encoding.md R91 to R107), and what a step does with the operation decoded
(R105; logs 1, 2). -/

namespace Sys2Proof.Proofs

open Sys2Proof Sys2Proof.Machine Sys2Proof.Laws

/-! ## Operand readers -/

@[simp] theorem read8_cons (b : Byte) (rest : List Byte) : read8 (b :: rest) = .ok (b, rest) := rfl

@[simp] theorem readCode_bit (b : Bool) (e : DecodeError) (rest : List Byte) :
    readCode bitOfCode e ((if b then 1#8 else 0#8) :: rest) = .ok (b, rest) := by cases b <;> rfl

/-- What fits a channel is a kind (30_encoding.md R107). -/
theorem ne_none_of_kindFits {ch : Channel} {kind : XferErr} (h : kindFits ch kind = true) : kind ≠ .none := by
  rintro rfl
  cases ch <;> cases h

theorem channel_of_ofCode {b : Byte} {ch : Channel} (h : Channel.ofCode b = some ch) : b.toNat = ch.code.toNat := by
  unfold Channel.ofCode at h
  split at h <;> cases h <;> assumption

theorem kind_of_ofCode {b : Byte} {kind : XferErr} (h : XferErr.ofCode b = some kind) :
    b.toNat = kind.code.toNat := by
  unfold XferErr.ofCode at h
  split at h <;> cases h <;> assumption

/-! ## Operations (R101, R102, R107) -/

theorem decodeOp_encode {i : Instr} (rest : List Byte) (hw : i.wf = true) (hc : i.cls ≠ .data) :
    decodeOp (encode i ++ rest) = .ok (i, rest) := by
  cases i with
  | tele | rxc | fstart | ledc | latch | ledcell | telbyte | latchexp | teltick => rfl
  | reserved06 | reserved07 | reserved0F | reserved1E | reserved1F => rfl
  | idle | wfi | reset | cycadv | rxbyte | access | pend | cell | ser | util => simp [encode, decodeOp]
  | atomic r body =>
    have hbody : body.wf = true := hw
    have fuel : body.encode.length ≤ body.encode.length + rest.length + 1 := by omega
    simp [encode, decodeOp, readBlock_encode body _ rest hbody fuel]
  | submit b c | release b c =>
    have hbound : boundTogether b c = true := hw
    simp [encode, decodeOp, readBinding_code hbound]
  | halt c =>
    have hcause : c ≠ .none := bne_iff_ne.1 hw
    simp [encode, decodeOp, readCode_cause hcause]
  | xfererr ch kind =>
    have hfits : kindFits ch kind = true := hw
    simp [encode, decodeOp, readCode_kind (ne_none_of_kindFits hfits), hfits]
  | enc p =>
    have hlen : p.length = 72 := beq_iff_eq.1 hw
    simp [encode, decodeOp, readBytes_append hlen]
  | des q =>
    have hlen : q.length = 11 := beq_iff_eq.1 hw
    simp [encode, decodeOp, readBytes_append hlen]
  | dec z =>
    have hlen : z.length < 4294967296 := of_decide_eq_true hw
    simp [encode, decodeOp, Nat.mod_eq_of_lt hlen, readBytes_append]
  | fPixel | fCell0 | fCell1 | fCellRst | fTel | fLedGroup => exact absurd rfl hc

/-- Settles O8: the id byte selects the reader of the operands that were written after it. -/
theorem decodeOfEncodedOperation : Obligations.DecodeOfEncodedOperation := by
  unfold Obligations.DecodeOfEncodedOperation
  exact fun _ rest hw hc => decodeOp_encode rest hw hc

theorem decodeOp_unknownId {id : Byte} (h : 0x20 ≤ id.toNat) (bs : List Byte) :
    decodeOp (id :: bs) = .error (.unknownId id) := by
  simp only [decodeOp]
  split
  case h_33 => rfl
  all_goals omega

/-- A code that was read is the first byte's. -/
theorem readCode_eq_ok {α : Type} {f : Byte → Option α} {e : DecodeError} {b : Byte} {bs : List Byte}
    {x : α × List Byte} : readCode f e (b :: bs) = .ok x ↔ f b = some x.1 ∧ x.2 = bs := by
  obtain ⟨a, rest⟩ := x
  cases h : f b <;> simp [readCode, h, eq_comm]

/-- Operand bytes of `XFERERR` that are accepted name a channel and a kind that fits it (R107). -/
theorem decodeOp_xfererr_ok {ch kind : Byte} {bs : List Byte} {x : Instr × List Byte}
    (h : decodeOp (0x17 :: ch :: kind :: bs) = .ok x) :
    ∃ (c : Channel) (k : XferErr), ch.toNat = c.code.toNat ∧ kind.toNat = k.code.toNat ∧ kindFits c k = true := by
  have read : decodeOp (0x17 :: ch :: kind :: bs) =
      after (readCode Channel.ofCode .badChannel (ch :: kind :: bs)) fun c bs =>
      after (readCode XferErr.ofCode .badKind bs) fun k bs =>
      if kindFits c k then .ok (.xfererr c k, bs) else .error .kindNotOfChannel := rfl
  rw [read, after_eq_ok] at h
  obtain ⟨c, _, hc, h⟩ := h
  obtain ⟨hc, rfl⟩ := readCode_eq_ok.1 hc
  obtain ⟨k, _, hk, h⟩ := after_eq_ok.1 h
  obtain ⟨hk, -⟩ := readCode_eq_ok.1 hk
  split at h
  case isTrue hfits => exact ⟨c, k, channel_of_ofCode hc, kind_of_ofCode hk, hfits⟩
  case isFalse => cases h

/-! ## Data items and calls (R91 to R97; logs 2, 3) -/

/-- Off the data streams there is one port, for PRIM and FUNC operations. -/
theorem port_of_not_data {i : Instr} (h : i.cls ≠ .data) :
    i.port = if i.cls == .prim || i.cls == .func then some .call else none := by
  cases i with
  | fPixel | fCell0 | fCell1 | fCellRst | fTel | fLedGroup => exact absurd rfl h
  | _ => rfl

theorem decodePort_call_encode {i : Instr} (hw : i.wf = true) (hd : i.cls ≠ .data)
    (hc : (i.cls == .prim || i.cls == .func) = true) : decodePort .call (encode i) = .ok (i, []) := by
  have decoded := decodeOp_encode [] hw hd
  rw [List.append_nil] at decoded
  simp only [decodePort, decoded, after_ok, hc, if_true]

theorem decodePort_cells_dutyCell (b : Bool) :
    decodePort .cells [dutyCell b] = .ok (if b then .fCell1 else .fCell0, []) := by
  cases b <;> simp [decodePort, dutyCell_ne_reset]

theorem groupCells_length (g r b : Byte) : (groupCells g r b).length = 24 := rfl

theorem decodePort_ledGroup_groupCells (g r b : Byte) :
    decodePort .ledGroup (groupCells g r b) = .ok (.fLedGroup g r b, []) := by
  have cells := readBytes_append (groupCells_length g r b) []
  rw [List.append_nil] at cells
  have bits : cellBits (groupCells g r b) = some (msbBits g ++ msbBits r ++ msbBits b) := cellBits_map _
  have blue : (msbBits g ++ msbBits r ++ msbBits b).drop 16 = msbBits b := List.drop_left' (by simp)
  simp only [decodePort, cells, after_ok, bits, blue]
  simp [ofMsbBits_msbBits]

theorem decodePort_report_ser (x : Snapshot) : decodePort .report (ser x) = .ok (.fTel x, []) := by
  simp [decodePort, ser_eq]

/-- Settles O9: each stream's reader undoes its writer, and the call port decodes an operation (O8). -/
theorem decodeOfEncodedItem : Obligations.DecodeOfEncodedItem := by
  unfold Obligations.DecodeOfEncodedItem
  intro i p hw hp
  by_cases hd : i.cls = .data
  case neg =>
    rw [port_of_not_data hd] at hp
    split at hp
    case isTrue hc => cases hp; exact decodePort_call_encode hw hd hc
    case isFalse => cases hp
  cases i with
  | fPixel r g b => cases hp; rfl
  | fCell0 => cases hp; exact decodePort_cells_dutyCell false
  | fCell1 => cases hp; exact decodePort_cells_dutyCell true
  | fCellRst => cases hp; simp [encode, decodePort]
  | fTel x => cases hp; exact decodePort_report_ser x
  | fLedGroup g r b => cases hp; exact decodePort_ledGroup_groupCells g r b
  | _ => cases hd

/-- Settles O6: what `XFERERR`'s readers accept meets none of the four conditions. -/
theorem illegalOperationBytesAreRefused : Obligations.IllegalOperationBytesAreRefused := by
  unfold Obligations.IllegalOperationBytesAreRefused
  refine ⟨fun id bs h => decodeOp_unknownId h bs, fun ch kind bs h => ?_⟩
  cases hd : decodeOp (0x17 :: ch :: kind :: bs) with
  | error e => exact ⟨e, rfl⟩
  | ok x =>
    exfalso
    obtain ⟨c, k, hch, hkind, hfits⟩ := decodeOp_xfererr_ok hd
    have hne : ch ≠ 0 ↔ ch.toNat ≠ 0 := by simp [BitVec.toNat_eq]
    rw [hne, hch, hkind] at h
    revert h hfits
    cases c <;> cases k <;> decide

/-! ## The fetch -/

/-- A PRIM or FUNC operation is no step of a trace (R105). -/
theorem fetch_call_in_trace {s : State} {i : Instr} {rest : List Byte} (hcalls : s.calls = [])
    (hdecode : decodeOp s.trace = .ok (i, rest)) (hi : i.cls = .prim ∨ i.cls = .func) :
    fetch s = .error .notATraceStep := by
  cases htrace : s.trace with
  | nil => rw [htrace] at hdecode; cases hdecode
  | cons b bs =>
    rw [htrace] at hdecode
    simp [fetch, hcalls, htrace, hdecode, hi]

/-- Settles O3: the fetch takes the operation, or refuses it by its class. -/
theorem stepRunsTheDecodedTraceStep : Obligations.StepRunsTheDecodedTraceStep := by
  unfold Obligations.StepRunsTheDecodedTraceStep
  intro s i rest hcalls hdecode
  constructor
  · intro hi
    have fetched : fetch s = .ok (i, { s with trace := rest }) := (fetch_eq_ok hcalls).2 ⟨rest, hdecode, hi, rfl⟩
    simp only [step, fetched]
  · intro hi
    simp only [step, fetch_call_in_trace hcalls hdecode hi]

/-- Settles O4: the fetch looks at the waiting calls first. -/
theorem stepRunsTheWaitingCall : Obligations.StepRunsTheWaitingCall := by
  unfold Obligations.StepRunsTheWaitingCall
  intro s c cs i hcalls hdecode
  simp only [step, fetch, hcalls, hdecode]

/-- Settles O5: the seven words are decoded by evaluation. -/
theorem specWordsDecode : Obligations.SpecWordsDecode := by
  unfold Obligations.SpecWordsDecode
  exact ⟨rfl, rfl, rfl, rfl, rfl, rfl, rfl⟩

/-- Settles O7: each id's meaning is its refusal. -/
theorem reservedIdsAreRefused : Obligations.ReservedIdsAreRefused := by
  unfold Obligations.ReservedIdsAreRefused
  exact fun s => ⟨rfl, rfl, rfl, rfl, rfl⟩

/-- Settles O41: a number is the weighted sum of its bytes, low byte first. -/
theorem littleEndianRoundTrip : Obligations.LittleEndianRoundTrip := by
  unfold Obligations.LittleEndianRoundTrip
  exact ⟨fun v => ⟨_, _, rfl, le16_toNat v, ofLe16_extract v⟩,
    fun v => ⟨_, _, _, _, rfl, le32_toNat v, ofLe32_extract v⟩⟩

end Sys2Proof.Proofs
end

section
/-! Data items as the beats that carry their bytes (30_encoding.md R91 to R97; log 4). -/

namespace Sys2Proof.Proofs

open Sys2Proof Sys2Proof.Machine Sys2Proof.Laws

variable {s s1 : State}

/-! ## Cells on the LED line (R92, R93, R96, 41_dma_buffers.md R154) -/

/-- The beat sends the next byte of the buffer, whichever cell is asked for. -/
theorem carryCell_eq {d : Byte} (e : Byte) (hf : s.inFlight .txled .led = true) (hc : s.chLed.cnt.toNat < 577)
    (hv : s.bufTxled.read s.chLed.cnt.toNat = some d) :
    carryCell e s = if d = e then .next (sendCell d s) else .refused .streamDiffers := by
  rw [carryCell, if_pos hf, dmaRead_ok (b := .txled) hc hv]

/-- Settles O49: item and beat read the same byte, and the item is refused where it is not the one asked for. -/
theorem cellItemsAreLedcellBeats : Obligations.CellItemsAreLedcellBeats := by
  unfold Obligations.CellItemsAreLedcellBeats
  intro s d hr hf hc hv
  have beat : exec .ledcell s = .next (sendCell d s) := (whenRunning_running hr _).trans (ledBeat_send hf hc hv)
  have item (e : Byte) : whenRunning s (carryCell e s) =
      if d = e then .next (sendCell d s) else .refused .streamDiffers :=
    (whenRunning_running hr _).trans (carryCell_eq e hf hc hv)
  have sent := sendCell_eq d hf
  exact ⟨⟨sendCell d s, beat, by rw [sent], by rw [sent], fun h => (item _).trans (if_pos h),
    fun h => (item _).trans (if_pos h), fun h => (item _).trans (if_pos h)⟩, fun h => (item _).trans (if_neg h),
    fun h => (item _).trans (if_neg h), fun h => (item _).trans (if_neg h)⟩

/-- The state after the next cells `ds` of a refresh have been sent, the last of the refresh not among them: nothing is
completed and nothing pended. -/
def afterCells (ds : List Byte) (s : State) : State :=
  { s with
    dutyReg := ds.getLastD s.dutyReg
    ledOut := s.ledOut ++ ds.map .cell
    chLed := { s.chLed with cnt := s.chLed.cnt + BitVec.ofNat 10 ds.length } }

theorem afterCells_nil (s : State) : afterCells [] s = s := by
  simp [afterCells]

theorem afterCells_cons (d : Byte) (ds : List Byte) (s : State) :
    afterCells ds (afterCells [d] s) = afterCells (d :: ds) s := by
  have count : s.chLed.cnt + 1#10 + BitVec.ofNat 10 ds.length = s.chLed.cnt + BitVec.ofNat 10 (ds.length + 1) :=
    cnt_one_add _ _
  simp only [afterCells, List.length_cons, List.length_nil, Nat.zero_add, count, List.getLastD_cons, List.getLastD_nil,
    List.map_cons, List.map_nil, List.append_assoc, List.singleton_append]

theorem inFlight_afterCells (ds : List Byte) (s : State) :
    (afterCells ds s).inFlight .txled .led = s.inFlight .txled .led := rfl

theorem sendCell_eq_afterCells (d : Byte) (h : s.chLed.cnt.toNat < 576) : sendCell d s = afterCells [d] s := by
  have not_last : s.chLed.cnt.toNat ≠ 576 := by omega
  simp [sendCell, DmaChannel.advance, Config.ledBufBytes, afterCells, not_last]

/-- Cells that stand next in the buffer leave as one beat each. -/
theorem carryCells_eq {ds : List Byte} (hr : s.halted = false) (hf : s.inFlight .txled .led = true)
    (hc : s.chLed.cnt.toNat + ds.length ≤ 576)
    (hv : s.bufTxled.readRange s.chLed.cnt.toNat ds.length = some ds) :
    carryCells ds s = .next (afterCells ds s) := by
  induction ds generalizing s with
  | nil => rw [afterCells_nil]; rfl
  | cons d ds ih =>
    rw [List.length_cons] at hc hv
    obtain ⟨hfirst, hrest⟩ := readRange_cons hv
    have count : (afterCells [d] s).chLed.cnt.toNat = s.chLed.cnt.toNat + 1 := cnt_succ (by omega)
    have beat : carryCell d s = .next (afterCells [d] s) := by
      rw [carryCell_eq d hf (by omega) hfirst, if_pos rfl, sendCell_eq_afterCells d (by omega)]
    have running : (afterCells [d] s).halted = false := hr
    have beats := ih running ((inFlight_afterCells _ _).trans hf) (by omega) (by rw [count]; exact hrest)
    rw [afterCells_cons] at beats
    rw [carryCells, beat, andThen_next, running]
    exact beats

/-- Settles O50: the cells of one LED end before the reset cell, so all 24 are beats of one transfer. -/
theorem ledGroupIsTwentyFourBeats : Obligations.LedGroupIsTwentyFourBeats := by
  unfold Obligations.LedGroupIsTwentyFourBeats
  intro g r b s hr hf hstart hc hv
  have length := groupCells_length g r b
  have item : exec (.fLedGroup g r b) s = carryCells (groupCells g r b) s :=
    (whenRunning_running hr _).trans (if_pos ⟨hstart, hc⟩)
  exact item.trans (carryCells_eq hr hf (by omega) hv)

/-! ## Bytes of a report (R97, 41_dma_buffers.md R155) -/

/-- The beat sends the next byte of the buffer, as the item that asks for it does. -/
theorem carryByte_eq_sendByte {v : Byte} (hf : s.inFlight .txt .tel = true) (hc : s.chTel.cnt.toNat < 13)
    (hv : s.bufTxt.read s.chTel.cnt.toNat = some v) : carryByte v s = .next (sendByte v s) := by
  rw [carryByte, if_pos hf, dmaRead_ok (b := .txt) hc hv, if_pos rfl]

/-- A report with no error flagged: in flight before byte 13, complete from there. -/
structure ReportSent (s : State) : Prop where
  running : s.halted = false
  owned : s.ownerTxt = .dma
  done : s.chTel.done = decide (s.chTel.cnt.toNat = 13)
  err : s.chTel.err = .none

theorem ReportSent.inFlight (h : ReportSent s) (hc : s.chTel.cnt.toNat < 13) : s.inFlight .txt .tel = true :=
  inFlight_iff.2 ⟨h.owned, h.done.trans (decide_eq_false (by omega)), h.err⟩

/-- The state after the next bytes `vs` of a report have been sent. -/
def afterBytes (vs : List Byte) (s : State) : State :=
  { s with
    serTx := s.serTx ++ vs
    chTel :=
      { cnt := s.chTel.cnt + BitVec.ofNat 4 vs.length
        done := decide ((s.chTel.cnt + BitVec.ofNat 4 vs.length).toNat = 13)
        err := .none } }

theorem reportSent_afterBytes (h : ReportSent s) (vs : List Byte) : ReportSent (afterBytes vs s) :=
  ⟨h.running, h.owned, rfl, rfl⟩

theorem afterBytes_nil (h : ReportSent s) : afterBytes [] s = s := by
  simp [afterBytes, ← h.done, ← h.err]

theorem afterBytes_cons (v : Byte) (vs : List Byte) (s : State) :
    afterBytes vs (afterBytes [v] s) = afterBytes (v :: vs) s := by
  have count : s.chTel.cnt + 1#4 + BitVec.ofNat 4 vs.length = s.chTel.cnt + BitVec.ofNat 4 (vs.length + 1) :=
    cnt_one_add _ _
  simp only [afterBytes, List.length_cons, List.length_nil, Nat.zero_add, count, List.append_assoc,
    List.singleton_append]

theorem sendByte_eq_afterBytes (hf : s.inFlight .txt .tel = true) (hc : s.chTel.cnt.toNat < 13) (v : Byte) :
    sendByte v s = afterBytes [v] s := by
  have count : (s.chTel.cnt + 1#4).toNat = s.chTel.cnt.toNat + 1 := cnt_succ (by omega)
  simp [sendByte_eq v hf, afterBytes, count]

/-- Bytes that stand next in the buffer leave as one `TELBYTE` beat each, as an item's bytes and as steps of a trace. -/
theorem carryBytes_eq {vs : List Byte} (h : ReportSent s) (hc : s.chTel.cnt.toNat + vs.length ≤ 13)
    (hv : s.bufTxt.readRange s.chTel.cnt.toNat vs.length = some vs) :
    carryBytes vs s = .next (afterBytes vs s) ∧
      runTrace (List.replicate vs.length .telbyte) s = .next (afterBytes vs s) := by
  induction vs generalizing s with
  | nil =>
    rw [afterBytes_nil h]
    exact ⟨rfl, rfl⟩
  | cons v vs ih =>
    rw [List.length_cons] at hc hv
    obtain ⟨hfirst, hrest⟩ := readRange_cons hv
    have room : s.chTel.cnt.toNat < 13 := by omega
    have hf := h.inFlight room
    have count : (afterBytes [v] s).chTel.cnt.toNat = s.chTel.cnt.toNat + 1 := cnt_succ (by omega)
    have item : carryByte v s = .next (afterBytes [v] s) := by
      rw [carryByte_eq_sendByte hf room hfirst, sendByte_eq_afterBytes hf room]
    have beat : exec .telbyte s = .next (afterBytes [v] s) := by
      rw [← sendByte_eq_afterBytes hf room]
      exact (whenRunning_running h.running _).trans (telBeat_send hf room hfirst)
    have after := reportSent_afterBytes h [v]
    obtain ⟨items, beats⟩ := ih after (by omega) (by rw [count]; exact hrest)
    rw [afterBytes_cons] at items beats
    constructor
    · rw [carryBytes, item, andThen_next, after.running]
      exact items
    · rw [List.length_cons, List.replicate_succ, runTrace, beat]
      exact beats

/-- Settles O51: from byte 0 the 13 bytes of the report are 13 beats, the last of which completes it. -/
theorem reportIsThirteenBeats : Obligations.ReportIsThirteenBeats := by
  unfold Obligations.ReportIsThirteenBeats
  intro x s hr ho hch hv
  have begun : ReportSent s := ⟨hr, ho, by rw [hch]; rfl, by rw [hch]⟩
  have start : s.chTel.cnt.toNat = 0 := by rw [hch]; rfl
  have whole : afterBytes (ser x) s =
      { s with serTx := s.serTx ++ ser x, chTel := { cnt := 13, done := true, err := .none } } := by
    simp [afterBytes, hch]
  have room : s.chTel.cnt.toNat + (ser x).length ≤ 13 := by simp [start]
  obtain ⟨items, beats⟩ := carryBytes_eq begun room (by rw [start]; exact hv)
  have item : exec (.fTel x) s = .next (afterBytes (ser x) s) :=
    ((whenRunning_running hr _).trans (if_pos start)).trans items
  exact ⟨item.trans (congrArg _ whole), beats.trans item.symm⟩

/-! ## Bytes on the serial input (R91, 41_dma_buffers.md R153, R159) -/

/-- An unhalted state whose receive transfer, if one is in flight, has room for the next byte. -/
structure Receiving (s : State) : Prop where
  running : s.halted = false
  room : s.inFlight .rx .rx = true → s.chRx.cnt.toNat < 72

/-- A byte of a transfer in flight is stored at the count, and the transfer goes on below byte 72. -/
theorem rxBeat_stores {v : Byte} (hf : s.inFlight .rx .rx = true) (hc : s.chRx.cnt.toNat < 72)
    (h : rxBeat v s = .next s1) :
    s1.bufRx = s.bufRx.writeRange s.chRx.cnt.toNat [v] ∧ s1.chRx.cnt.toNat = s.chRx.cnt.toNat + 1 ∧
      (s1.inFlight .rx .rx = true ↔ s.chRx.cnt.toNat + 1 ≠ 72) := by
  rw [rxBeat_store v hf hc] at h
  cases h
  have owned : s.ownerRx = .dma := (inFlight_iff.1 hf).1
  exact ⟨rfl, cnt_succ (by omega), by simp [State.inFlight, State.owner, owned]⟩

/-- A byte completes in every such state and leads to one, stored or lost. -/
theorem rxBeat_keepsReceiving (h : Receiving s) (v : Byte) : ∃ s1, rxBeat v s = .next s1 ∧ Receiving s1 := by
  obtain ⟨hr, room⟩ := h
  cases hf : s.inFlight .rx .rx
  case false =>
    refine ⟨_, rxBeat_lost v hf, ?_⟩
    split
    · exact ⟨hr, by simp [State.inFlight]⟩
    · exact ⟨hr, room⟩
  case true =>
    have below : s.chRx.cnt.toNat < 72 := room hf
    obtain ⟨-, count, more⟩ := rxBeat_stores hf below (rxBeat_store v hf below)
    refine ⟨_, rxBeat_store v hf below, hr, fun hf1 => ?_⟩
    have not_last := more.1 hf1
    omega

/-- A byte received is the first step of a trace that begins with it. -/
theorem runTrace_rxbyte_cons {v : Byte} {is : List Instr} (hr : s.halted = false) (h : rxBeat v s = .next s1) :
    runTrace (.rxbyte v :: is) s = runTrace is s1 := by
  have beat : exec (.rxbyte v) s = .next s1 := (whenRunning_running hr _).trans h
  rw [runTrace, beat]

/-- Settles O48: each byte leaves a state that receives the next one; those of a transfer in flight stand one after
another. -/
theorem pixelArrivesAsThreeBytes : Obligations.PixelArrivesAsThreeBytes := by
  unfold Obligations.PixelArrivesAsThreeBytes
  intro r g b s hr room
  obtain ⟨s1, beat1, ok1⟩ := rxBeat_keepsReceiving ⟨hr, room⟩ r
  obtain ⟨s2, beat2, ok2⟩ := rxBeat_keepsReceiving ok1 g
  obtain ⟨s3, beat3, ok3⟩ := rxBeat_keepsReceiving ok2 b
  have item : exec (.fPixel r g b) s = .next s3 := by
    have body : andThen (rxBeat r s) (fun s => andThen (rxBeat g s) (rxBeat b)) = .next s3 := by
      rw [beat1, andThen_next, ok1.running, beat2, andThen_next, ok2.running]
      exact beat3
    exact (whenRunning_running hr _).trans body
  have beats : runTrace [.rxbyte r, .rxbyte g, .rxbyte b] s = .next s3 := by
    rw [runTrace_rxbyte_cons hr beat1, runTrace_rxbyte_cons ok1.running beat2, runTrace_rxbyte_cons ok2.running beat3]
    rfl
  refine ⟨s3, item, beats, fun hf space => ?_⟩
  obtain ⟨mem1, count1, more1⟩ := rxBeat_stores hf (by omega) beat1
  obtain ⟨mem2, count2, more2⟩ := rxBeat_stores (more1.2 (by omega)) (by omega) beat2
  obtain ⟨mem3, count3, -⟩ := rxBeat_stores (more2.2 (by omega)) (by omega) beat3
  have stored : s3.bufRx = s.bufRx.writeRange s.chRx.cnt.toNat [r, g, b] := by
    rw [mem3, count2, mem2, writeRange_cons, count1, mem1, writeRange_cons]
  exact ⟨stored ▸ readRange_writeRange _ _ [r, g, b], by omega⟩

end Sys2Proof.Proofs
end

section
/-! The primitives of arbitration as calls (40_arbitration.md R131, R132, R134), and when a task run is dispatched
(R133). -/

namespace Sys2Proof.Proofs

open Sys2Proof Sys2Proof.Machine Sys2Proof.Laws

/-! ## `PEND` (R134) -/

/-- Writing a pending bit with the value it has changes no bit. -/
theorem set_get_self (p : PendingBits) (t : Irq) : p.set t (p.get t) = p := by cases t <;> rfl

/-- Settles O14: `PEND` is the request of the task. -/
theorem pendSetsTheBit : Obligations.PendSetsTheBit := by
  unfold Obligations.PendSetsTheBit
  intro t s hr
  refine ⟨s.request t, whenRunning_running hr _, get_set_same _ _ _, fun u hu => get_set_other _ _ _ _ hu, rfl,
    fun pended => ?_⟩
  have same : s.pend.set t true = s.pend := by rw [← pended, set_get_self]
  exact congrArg (fun p => { s with pend := p }) same

/-! ## `ACCESS` (R131, 10_state.md R47) -/

/-- The highest priority of some tasks is the priority of one of them. -/
theorem exists_prio_eq_foldr_max {ts : List Task} (h : ts ≠ []) :
    ∃ t ∈ ts, Config.prio t = ts.foldr (fun t m => max (Config.prio t) m) 0 := by
  induction ts with
  | nil => exact absurd rfl h
  | cons t ts ih =>
    rw [List.foldr_cons]
    by_cases htop : ts.foldr (fun t m => max (Config.prio t) m) 0 ≤ Config.prio t
    · exact ⟨t, List.mem_cons_self, (max_eq_left htop).symm⟩
    · have hts : ts ≠ [] := by rintro rfl; exact htop (Nat.zero_le _)
      obtain ⟨u, hu, hp⟩ := ih hts
      exact ⟨u, List.mem_cons_of_mem _ hu, hp.trans (max_eq_right (Nat.le_of_not_le htop)).symm⟩

theorem accessors_ne_nil (r : Resource) : accessors r ≠ [] := by cases r <;> exact List.cons_ne_nil _ _

/-- Settles O15: the test accessor by accessor is the comparison with the ceiling. -/
theorem accessNeedsTheCeiling : Obligations.AccessNeedsTheCeiling := by
  unfold Obligations.AccessNeedsTheCeiling
  refine ⟨fun r s hr hc => ?_, fun r s hr hc => ?_, fun _ _ => prio_le_ceiling,
    fun r => exists_prio_eq_foldr_max (accessors_ne_nil r), rfl, rfl, rfl, rfl, rfl, rfl, rfl, rfl, rfl⟩
  · exact (whenRunning_running hr _).trans (if_pos ((mayAccess_iff s r).2 hc))
  · exact (whenRunning_running hr _).trans (if_neg fun h => Nat.not_le_of_lt hc ((mayAccess_iff s r).1 h))

/-! ## `ATOMIC` (R132) -/

/-- A section whose body answers next restores the priority, unless the body halted. -/
theorem atomicSection_next {r : Resource} {body : State → Result} {s s' : State}
    (h : body { s with curPrio := max s.curPrio (ceiling r) } = .next s') :
    atomicSection r body s = .next (if s'.halted then s' else { s' with curPrio := s.curPrio }) := by
  rw [atomicSection, h, andThen_next, apply_ite Host.Outcome.next]

/-- Settles O16: the section's own exit is the restoring of the priority. -/
theorem atomicRunsAtTheCeiling : Obligations.AtomicRunsAtTheCeiling := by
  unfold Obligations.AtomicRunsAtTheCeiling
  intro r body s s' hr h
  exact (whenRunning_running hr _).trans (atomicSection_next h)

/-- What an unconditional section leaves as it is. -/
def undisturbed (s : State) : Nat × Bool × Cause × List Activation × (Buf → Memory) :=
  (s.curPrio, s.halted, s.cause, s.stack, s.buf)

/-- In every unhalted state `f` answers next and leaves the halt, the priority, the task runs and the buffers as they
are. -/
def Completes (f : State → Result) : Prop :=
  ∀ s, s.halted = false → ∃ s', f s = .next s' ∧ undisturbed s' = undisturbed s

theorem halted_of_undisturbed {s s' : State} (h : undisturbed s' = undisturbed s) : s'.halted = s.halted :=
  congrArg (·.2.1) h

theorem completes_next {g : State → State} (h : ∀ s, undisturbed (g s) = undisturbed s) :
    Completes fun s => .next (g s) := fun s _ => ⟨g s, rfl, h s⟩

theorem completes_andThen {f k : State → Result} (hf : Completes f) (hk : Completes k) :
    Completes fun s => andThen (f s) k := by
  intro s hr
  obtain ⟨s1, h1, u1⟩ := hf s hr
  have hr1 : s1.halted = false := (halted_of_undisturbed u1).trans hr
  obtain ⟨s2, h2, u2⟩ := hk s1 hr1
  exact ⟨s2, andThen_eq_next.2 ⟨s1, h1, .inr ⟨hr1, h2⟩⟩, u2.trans u1⟩

theorem completes_atomicSection (r : Resource) {body : State → Result} (hb : Completes body) :
    Completes (atomicSection r body) := by
  intro s hr
  obtain ⟨s1, h1, u1⟩ := hb { s with curPrio := max s.curPrio (ceiling r) } hr
  have hr1 : s1.halted = false := (halted_of_undisturbed u1).trans hr
  have restored : undisturbed { s1 with curPrio := s.curPrio } = undisturbed s :=
    congrArg (fun u => (s.curPrio, u.2)) u1
  exact ⟨_, by rw [atomicSection_next h1, hr1, if_neg Bool.false_ne_true], restored⟩

/-- `SUBMIT` as a call answers `Ok` or `Busy` (41_dma_buffers.md R151). -/
theorem completes_callSubmit (b : DmaBuf) (c : Channel) : Completes (callSubmit b c) := by
  intro s _
  cases ho : s.owner b
  case cpu =>
    exact ⟨((s.setOwner b .dma).restart c).returning .ok, by rw [callSubmit, submit_cpu ho],
      by cases b <;> cases c <;> rfl⟩
  case dma => exact ⟨s.returning .errBusy, by rw [callSubmit, submit_dma ho], rfl⟩

/-- A block completes if its primitives do. -/
theorem completes_runBlock {b : Block} (h : Block.unconditional b = true) : Completes (runBlock b) := by
  induction b with
  | done => exact completes_next fun _ => rfl
  | atomic r b k ihb ih =>
    rw [Block.unconditional, Bool.and_eq_true] at h
    exact completes_andThen (completes_atomicSection r (ihb h.1)) (ih h.2)
  | submit b c k ih => exact completes_andThen (completes_callSubmit b c) (ih h)
  | pend t k ih => exact completes_andThen (completes_next fun _ => rfl) (ih h)
  | wfi d k ih => exact completes_andThen (completes_next fun _ => rfl) (ih h)
  | access | release | halt => cases h

/-- Settles O17, by induction on the body. -/
theorem unconditionalSectionsComplete : Obligations.UnconditionalSectionsComplete := by
  unfold Obligations.UnconditionalSectionsComplete
  intro r body s hr hb
  obtain ⟨s', h, u⟩ := completes_atomicSection r (completes_runBlock hb) s hr
  simp only [undisturbed, Prod.mk.injEq] at u
  obtain ⟨hp, hh, hc, hs, hbuf⟩ := u
  exact ⟨s', (whenRunning_running hr _).trans h, hh.trans hr, hc, hp, hs, congrFun hbuf⟩

/-! ## Dispatch (R133) -/

/-- A task taken as one step ran where it was dispatchable. -/
theorem dispatchable_of_taskStep_next {t : Irq} {fs : List (State → Result)} {s s' : State}
    (hm : s.sectioned = false) (h : taskStep t fs s = .next s') : Dispatchable t s :=
  ((wholeRun_eq_next hm).1 ((taskStep_whole hm).symm.trans h)).1

/-- Settles O18: a whole run is guarded by its dispatch. -/
theorem tasksRunOnlyWhenDispatchable : Obligations.TasksRunOnlyWhenDispatchable := by
  unfold Obligations.TasksRunOnlyWhenDispatchable
  intro s s' hm
  exact ⟨dispatchable_of_taskStep_next hm, dispatchable_of_taskStep_next hm, dispatchable_of_taskStep_next hm,
    dispatchable_of_taskStep_next hm, dispatchable_of_taskStep_next hm⟩

end Sys2Proof.Proofs
end

section
/-! A task run taken section by section (40_arbitration.md R135 to R137; log 8): the sections do not see the
granularity, so from an unpreempted run each section as a step is the section of the whole run. -/

namespace Sys2Proof.Proofs

open Sys2Proof Sys2Proof.Machine Sys2Proof.Laws

/-! ## The sections do not see the granularity -/

/-- `s` between two section steps, its innermost task run about to take section `k`. -/
def suspendAt (k : Nat) (s : State) : State :=
  { s with sectioned := true, stack := s.stack.modifyHead fun a => { a with next := k } }

/-- An answer with its state changed. -/
def mapNext (g : State → State) : Result → Result
  | .next s => .next (g s)
  | .fault f => .fault f
  | .refused q => .refused q

/-- `f` answers the same whatever the granularity and the number of the section it is. -/
def IgnoresMode (f : State → Result) : Prop := ∀ k s, f (suspendAt k s) = mapNext (suspendAt k) (f s)

theorem owner_suspendAt (k : Nat) (s : State) (b : DmaBuf) : (suspendAt k s).owner b = s.owner b := by cases b <;> rfl

theorem chanDone_suspendAt (k : Nat) (s : State) (c : Channel) : (suspendAt k s).chanDone c = s.chanDone c := by
  cases c <;> rfl

theorem chanErr_suspendAt (k : Nat) (s : State) (c : Channel) : (suspendAt k s).chanErr c = s.chanErr c := by
  cases c <;> rfl

theorem buf_suspendAt (k : Nat) (s : State) (b : Buf) : (suspendAt k s).buf b = s.buf b := by cases b <;> rfl

theorem cpuMayTouch_suspendAt (k : Nat) (s : State) (b : Buf) : (suspendAt k s).cpuMayTouch b = s.cpuMayTouch b := by
  cases b <;> rfl

theorem localSnap_suspendAt (k : Nat) (s : State) : (suspendAt k s).localSnap = s.localSnap := by
  cases h : s.stack <;> simp [suspendAt, State.localSnap, h]

theorem setLocalSnap_suspendAt (k : Nat) (s : State) (v : Snapshot) :
    (suspendAt k s).setLocalSnap v = suspendAt k (s.setLocalSnap v) := by
  cases h : s.stack <;> simp [suspendAt, State.setLocalSnap, h]

theorem ignoresMode_next {g : State → State} (h : ∀ k s, g (suspendAt k s) = suspendAt k (g s)) :
    IgnoresMode fun s => .next (g s) := fun k s => congrArg _ (h k s)

theorem ignoresMode_andThen {f g : State → Result} (hf : IgnoresMode f) (hg : IgnoresMode g) :
    IgnoresMode fun s => andThen (f s) g := by
  intro k s
  dsimp only
  rw [hf k s]
  cases f s with
  | next s1 =>
    have same : (suspendAt k s1).halted = s1.halted := rfl
    rw [mapNext, andThen_next, andThen_next, same, hg k s1, apply_ite (mapNext _)]
    rfl
  | fault | refused => rfl

theorem ignoresMode_ite {p : State → Prop} [DecidablePred p] {f g : State → Result}
    (hp : ∀ k s, p (suspendAt k s) ↔ p s) (hf : IgnoresMode f) (hg : IgnoresMode g) :
    IgnoresMode fun s => if p s then f s else g s := by
  intro k s
  by_cases h : p s
  · simpa only [hp, h, if_true] using hf k s
  · simpa only [hp, h, if_false] using hg k s

theorem ignoresMode_submitOrRaise (b : DmaBuf) (c : Channel) : IgnoresMode (submitOrRaise b c) := by
  intro k s
  have seen := owner_suspendAt k s b
  cases ho : s.owner b <;> rw [ho] at seen
  case cpu =>
    rw [submitOrRaise_cpu ho, submitOrRaise_cpu seen]
    cases b <;> cases c <;> rfl
  case dma =>
    rw [submitOrRaise_dma ho, submitOrRaise_dma seen]
    rfl

theorem ignoresMode_releaseOrRaise (b : DmaBuf) (c : Channel) : IgnoresMode (releaseOrRaise b c) := by
  intro k s
  have back : (suspendAt k s).setOwner b .cpu = suspendAt k (s.setOwner b .cpu) := by cases b <;> rfl
  unfold releaseOrRaise release
  rw [owner_suspendAt, chanErr_suspendAt, chanDone_suspendAt, back]
  split_ifs <;> rfl

theorem ignoresMode_memWrite (b : Buf) (i : Nat) (vs : List Byte) : IgnoresMode (memWrite b i vs) := by
  intro k s
  have stored (m : Memory) : (suspendAt k s).setBuf b m = suspendAt k (s.setBuf b m) := by cases b <;> rfl
  unfold memWrite
  rw [cpuMayTouch_suspendAt, buf_suspendAt, stored]
  split_ifs <;> rfl

theorem ignoresMode_memRead {b : Buf} {i n : Nat} {f : List Byte → State → Result} (hf : ∀ vs, IgnoresMode (f vs)) :
    IgnoresMode fun s => memRead b i n s fun vs => f vs s := by
  intro k s
  dsimp only
  unfold memRead
  rw [cpuMayTouch_suspendAt, buf_suspendAt]
  split_ifs
  · rfl
  · rfl
  · cases (s.buf b).readRange i n with
    | some vs => exact hf vs k s
    | none => rfl

theorem ignoresMode_takeFrame : IgnoresMode takeFrame :=
  ignoresMode_ite (fun _ _ => Iff.rfl) (ignoresMode_next fun _ _ => rfl) <|
    ignoresMode_memRead fun p => ignoresMode_andThen (ignoresMode_memWrite .rgb 0 p) (ignoresMode_next fun _ _ => rfl)

theorem ignoresMode_fillLedBuffer : IgnoresMode fillLedBuffer :=
  ignoresMode_memRead fun p => ignoresMode_memWrite .txled 0 (enc p)

theorem ignoresMode_reclaimReport : IgnoresMode reclaimReport :=
  ignoresMode_ite (fun _ _ => Iff.rfl)
    (ignoresMode_ite (fun _ _ => Iff.rfl) (ignoresMode_next fun _ _ => rfl) (ignoresMode_releaseOrRaise .txt .tel))
    (ignoresMode_next fun _ _ => rfl)

theorem ignoresMode_sendReport : IgnoresMode sendReport := by
  intro k s
  have sent := ignoresMode_andThen (ignoresMode_memWrite .txt 0 (ser s.localSnap)) (ignoresMode_submitOrRaise .txt .tel)
  unfold sendReport
  rw [localSnap_suspendAt]
  exact sent k s

/-! ## The sections keep the run they belong to -/

/-- Unless halted after, unhalted before and the reading `obs` as before. -/
def KeepsReading {α : Type} (obs : State → α) (s s' : State) : Prop :=
  s'.halted = false → s.halted = false ∧ obs s' = obs s

section
variable {α : Type} {obs : State → α}

theorem keepsReading_refl (s : State) : KeepsReading obs s s := fun hr => ⟨hr, rfl⟩

theorem keepsReading_trans (a b c : State) (h : KeepsReading obs a b) (k : KeepsReading obs b c) :
    KeepsReading obs a c := by
  intro hr
  obtain ⟨hrb, eb⟩ := k hr
  obtain ⟨hra, ea⟩ := h hrb
  exact ⟨hra, eb.trans ea⟩

theorem keepsReading_halt (s : State) (c : Cause) :
    KeepsReading obs s { s with halted := true, cause := c, stack := [] } := nofun

end

/-- What the dispatcher reads: the running priority, the pending bits, and of each task run in progress whose it is and
the priority it restores. -/
def runOf (s : State) : Nat × PendingBits × List (Irq × Nat) :=
  (s.curPrio, s.pend, s.stack.map fun a => (a.task, a.saved))

abbrev KeepsRun : (State → Result) → Prop := Keeps (KeepsReading runOf)

theorem keepsRun_next {g : State → State} (h : ∀ s, (g s).halted = s.halted ∧ runOf (g s) = runOf s) :
    KeepsRun fun s => .next (g s) :=
  keeps_next fun s hr => ⟨(h s).1.symm.trans hr, (h s).2⟩

theorem keepsRun_setOwner (s : State) (b : DmaBuf) (o : Owner) : KeepsReading runOf s (s.setOwner b o) :=
  fun hr => ⟨by simpa using hr, by simp [runOf]⟩

theorem keepsRun_handOver (s : State) (b : DmaBuf) (c : Channel) :
    KeepsReading runOf s ((s.setOwner b .dma).restart c) := fun hr => ⟨by simpa using hr, by simp [runOf]⟩

theorem runOf_setLocalSnap (s : State) (v : Snapshot) : runOf (s.setLocalSnap v) = runOf s := by
  cases h : s.stack <;> simp [runOf, State.setLocalSnap, h]

theorem keepsRun_releaseOrRaise (b : DmaBuf) (c : Channel) : KeepsRun (releaseOrRaise b c) :=
  keeps_releaseOrRaise keepsReading_trans keepsReading_halt c fun s => keepsRun_setOwner s b .cpu

theorem keepsRun_submitOrRaise (b : DmaBuf) (c : Channel) : KeepsRun (submitOrRaise b c) :=
  keeps_submitOrRaise keepsReading_halt fun s => keepsRun_handOver s b c

theorem keepsRun_memWrite (b : Buf) (i : Nat) (vs : List Byte) : KeepsRun (memWrite b i vs) :=
  keeps_memWrite keepsReading_halt fun s hr => ⟨by simpa using hr, by simp [runOf]⟩

/-! ## Sections that may be taken one by one -/

/-- A section that may be taken as a step of its own. -/
structure Separable (f : State → Result) : Prop where
  ignoresMode : IgnoresMode f
  keepsRun : KeepsRun f

/-- A section that writes only fields that neither a dispatch nor the granularity has a part in. -/
theorem separable_next {g : State → State}
    (h : ∀ k s, g (suspendAt k s) = suspendAt k (g s) ∧ (g s).halted = s.halted ∧ runOf (g s) = runOf s) :
    Separable fun s => .next (g s) :=
  ⟨ignoresMode_next fun k s => (h k s).1, keepsRun_next fun s => (h 0 s).2⟩

theorem separable_countRun : Separable countRun := separable_next fun _ _ => ⟨rfl, rfl, rfl⟩

theorem separable_releaseOrRaise (b : DmaBuf) (c : Channel) : Separable (releaseOrRaise b c) :=
  ⟨ignoresMode_releaseOrRaise b c, keepsRun_releaseOrRaise b c⟩

theorem separable_submitOrRaise (b : DmaBuf) (c : Channel) : Separable (submitOrRaise b c) :=
  ⟨ignoresMode_submitOrRaise b c, keepsRun_submitOrRaise b c⟩

theorem fstartSections_separable : ∀ f ∈ fstartSections, Separable f := by
  simp only [fstartSections, List.forall_mem_cons]
  exact ⟨separable_countRun,
    ⟨ignoresMode_fillLedBuffer, keeps_fillLedBuffer keepsReading_halt fun _ _ _ hr => ⟨hr, rfl⟩⟩,
    separable_submitOrRaise _ _, List.forall_mem_nil _⟩

theorem ledcSections_separable : ∀ f ∈ ledcSections, Separable f := by
  simp only [ledcSections, List.forall_mem_cons]
  exact ⟨separable_countRun, separable_releaseOrRaise _ _, separable_next fun _ _ => ⟨rfl, rfl, rfl⟩,
    List.forall_mem_nil _⟩

theorem latchSections_separable : ∀ f ∈ latchSections, Separable f := by
  simp only [latchSections, List.forall_mem_cons]
  exact ⟨separable_countRun, separable_next fun _ _ => ⟨rfl, rfl, rfl⟩, separable_next fun _ _ => ⟨rfl, rfl, rfl⟩,
    separable_next fun _ _ => ⟨rfl, rfl, rfl⟩, List.forall_mem_nil _⟩

theorem separable_reclaimReport : Separable reclaimReport where
  ignoresMode := ignoresMode_reclaimReport
  keepsRun := keeps_reclaimReport keepsReading_refl keepsReading_trans keepsReading_halt
    fun s => keepsRun_setOwner s .txt .cpu

theorem separable_sendReport : Separable sendReport where
  ignoresMode := ignoresMode_sendReport
  keepsRun := keeps_sendReport keepsReading_trans keepsReading_halt (fun _ _ _ hr => ⟨hr, rfl⟩)
    fun s => keepsRun_handOver s .txt .tel

/-- A section of `TELE` that notes one counter in the run's own snapshot. -/
theorem separable_setLocalSnap {v : Snapshot → State → Snapshot} (h : ∀ x k s, v x (suspendAt k s) = v x s) :
    Separable fun s => .next (s.setLocalSnap (v s.localSnap s)) :=
  separable_next fun k s => ⟨by rw [localSnap_suspendAt, h, setLocalSnap_suspendAt], setLocalSnap_halted _ _,
    runOf_setLocalSnap _ _⟩

theorem teleSections_separable : ∀ f ∈ teleSections, Separable f := by
  simp only [teleSections, List.forall_mem_cons]
  exact ⟨separable_reclaimReport,
    separable_setLocalSnap (v := fun x s => { x with cycleCounter := s.cycleCounter }) fun _ _ _ => rfl,
    separable_setLocalSnap (v := fun x s => { x with contextSwitches := s.contextSwitches }) fun _ _ _ => rfl,
    separable_setLocalSnap (v := fun x s => { x with frames := s.frames }) fun _ _ _ => rfl,
    separable_setLocalSnap (v := fun x s => { x with sleepCycles := s.sleepCycles }) fun _ _ _ => rfl,
    separable_sendReport, separable_next fun _ _ => ⟨rfl, rfl, rfl⟩, separable_next fun _ _ => ⟨rfl, rfl, rfl⟩,
    separable_next fun _ _ => ⟨rfl, rfl, rfl⟩, List.forall_mem_nil _⟩

/-! ## A run as the dispatcher sees it -/

/-- One run is in progress, of `t`, and it returns to the priority `p`. -/
def OnlyRun (t : Irq) (p : Nat) (s : State) : Prop := ∃ n x, s.stack = [⟨t, n, p, x⟩]

/-- An unhalted, unpreempted run of `t`, the only one in progress, that returns to the priority `p`. -/
structure Running (t : Irq) (p : Nat) (s : State) : Prop where
  unhalted : s.halted = false
  prio : s.curPrio = Config.prio (.irq t)
  unpreempted : ∀ u, u ≠ t → s.pend.get u = true → Config.prio (.irq u) ≤ Config.prio (.irq t)
  stack : OnlyRun t p s

section
variable {t : Irq} {p k : Nat} {s s1 s' : State} {i : Instr} {f : State → Result} {fs gs : List (State → Result)}

/-- Entry begins a run, and nothing that outranks it is pending. -/
theorem running_enterTask (h : Dispatchable t s) (hs : s.stack = []) : Running t s.curPrio (enterTask t s) where
  unhalted := h.running
  prio := rfl
  unpreempted u hu hp := h.first u (by rwa [← get_set_other s.pend t u false hu])
  stack := ⟨0, zeroSnapshot, congrArg _ hs⟩

/-- One run in progress is one run wherever the dispatcher reads the same. -/
theorem onlyRun_of_runOf_eq (h : runOf s1 = runOf s) (hs : OnlyRun t p s) : OnlyRun t p s1 := by
  obtain ⟨n, x, hs⟩ := hs
  simp only [runOf, Prod.mk.injEq, hs] at h
  obtain ⟨-, -, hstack⟩ := h
  obtain ⟨⟨_, n1, _, x1⟩, hs1, same⟩ := List.map_eq_singleton_iff.1 hstack
  cases same
  exact ⟨n1, x1, hs1⟩

theorem Running.of_runOf_eq (w : Running t p s) (hr : s1.halted = false) (h : runOf s1 = runOf s) :
    Running t p s1 := by
  have stack := onlyRun_of_runOf_eq h w.stack
  simp only [runOf, Prod.mk.injEq] at h
  obtain ⟨hp, hpend, -⟩ := h
  exact ⟨hr, hp.trans w.prio, hpend ▸ w.unpreempted, stack⟩

/-- A section that may be taken by itself leaves the run running. -/
theorem Running.after (w : Running t p s) (hf : Separable f) (h : f s = .next s1) (hr : s1.halted = false) :
    Running t p s1 := w.of_runOf_eq hr (hf.keepsRun s s1 w.unhalted h hr).2

/-- A request of a task that does not outrank the run does not preempt it. -/
theorem Running.request {u : Irq} (w : Running t p s) (hu : Config.prio (.irq u) ≤ Config.prio (.irq t)) :
    Running t p (s.request u) where
  unhalted := w.unhalted
  prio := w.prio
  unpreempted v hv hp := by
    by_cases huv : v = u
    · exact huv ▸ hu
    · exact w.unpreempted v hv (by rwa [← get_set_other s.pend u v true huv])
  stack := w.stack

/-! ## Unhalted runs, section by section -/

/-- Two lines that end unhalted both ran. -/
theorem andThen_next_running {r : Result} {g : State → Result} (h : andThen r g = .next s') (hr : s'.halted = false) :
    ∃ s1, r = .next s1 ∧ s1.halted = false ∧ g s1 = .next s' := by
  obtain ⟨s1, h1, ⟨hh, rfl⟩ | ⟨hr1, h2⟩⟩ := andThen_eq_next.1 h
  · cases hh.symm.trans hr
  · exact ⟨s1, h1, hr1, h2⟩

theorem runSections_append_running (h : runSections (gs ++ fs) s = .next s') (hr : s'.halted = false)
    (hs : s.halted = false) :
    ∃ s1, runSections gs s = .next s1 ∧ s1.halted = false ∧ runSections fs s1 = .next s' := by
  induction gs generalizing s with
  | nil => exact ⟨s, rfl, hs, h⟩
  | cons g gs ih =>
    obtain ⟨s1, h1, hr1, hrest⟩ := andThen_next_running h hr
    obtain ⟨s2, h2, hr2, h3⟩ := ih hrest hr1
    exact ⟨s2, runSections_step h1 hr1 h2, hr2, h3⟩

/-- A whole run that ends unhalted took all its sections and returned. -/
theorem taskStep_next_sections (h : Dispatchable t s) (e : taskStep t fs s = .next s') (hr : s'.halted = false) :
    ∃ s1, runSections fs (enterTask t s) = .next s1 ∧ s1.halted = false ∧ leaveTask s1 = .next s' := by
  rw [taskStep_whole h.whole, wholeRun_of h] at e
  exact andThen_next_running e hr

/-! ## One section as a step (R136) -/

theorem taskStep_sectioned (h : s.sectioned = true) : taskStep t fs s = oneSection t fs s := by
  simp [taskStep, h]

theorem oneSection_next (hr : s.halted = false) (hi : s.isRunning t = true)
    (hq : s.pendingAbove t s.curPrio = false) :
    oneSection t fs s = andThen (runSections ((fs.drop s.sectionIndex).take 1) s) (nextSection fs.length) := by
  simp [oneSection, hr, hi, hq]

theorem oneSection_preempted (hr : s.halted = false) (hi : s.isRunning t = true)
    (hq : s.pendingAbove t s.curPrio = true) : oneSection t fs s = .refused (.preempted t) := by
  simp [oneSection, hr, hi, hq]

theorem oneSection_dispatch (hr : s.halted = false) (hi : s.isRunning t = false) :
    oneSection t fs s =
      whenDispatchable t s (andThen (runSections (fs.take 1) (enterTask t s)) (nextSection fs.length)) := by
  simp [oneSection, hr, hi]

theorem pendingAbove_eq_true {u : Irq} (hu : u ≠ t) (hp : s.pend.get u = true) (h : k < Config.prio (.irq u)) :
    s.pendingAbove t k = true := by
  rw [← Bool.not_eq_false, pendingAbove_eq_false]
  exact fun quiet => Nat.not_le_of_lt h (quiet u hu hp)

theorem isRunning_suspendAt (hs : OnlyRun t p s) : (suspendAt k s).isRunning t = true := by
  obtain ⟨n, x, hs⟩ := hs
  simp [State.isRunning, suspendAt, hs]

theorem sectionIndex_suspendAt (hs : OnlyRun t p s) : (suspendAt k s).sectionIndex = k := by
  obtain ⟨n, x, hs⟩ := hs
  simp [State.sectionIndex, suspendAt, hs]

/-- The step of a run in progress is its next section. -/
theorem taskStep_suspendAt (w : Running t p s) (k : Nat) (fs : List (State → Result)) :
    taskStep t fs (suspendAt k s) =
      andThen (runSections ((fs.drop k).take 1) (suspendAt k s)) (nextSection fs.length) := by
  have quiet : s.pendingAbove t s.curPrio = false :=
    pendingAbove_eq_false.2 fun u hu hp => (w.unpreempted u hu hp).trans_eq w.prio.symm
  rw [taskStep_sectioned rfl, oneSection_next (s := suspendAt k s) w.unhalted (isRunning_suspendAt w.stack) quiet,
    sectionIndex_suspendAt w.stack]

/-- A run that a pending task outranks does not go on (R137). -/
theorem taskStep_preempted {u : Irq} (hr : s.halted = false) (hs : OnlyRun t p s) (hu : u ≠ t)
    (hp : s.pend.get u = true) (above : s.curPrio < Config.prio (.irq u)) (fs : List (State → Result)) :
    taskStep t fs (suspendAt k s) = .refused (.preempted t) := by
  rw [taskStep_sectioned rfl]
  exact oneSection_preempted hr (isRunning_suspendAt hs) (pendingAbove_eq_true hu hp above)

/-- Dispatch with the first section is the entry and then the first section. -/
theorem taskStep_enter (h : Dispatchable t s) (hs : s.stack = []) (fs : List (State → Result)) :
    taskStep t fs { s with sectioned := true } = taskStep t fs (suspendAt 0 (enterTask t s)) := by
  have none_running : State.isRunning { s with sectioned := true } t = false := by simp [State.isRunning, hs]
  rw [taskStep_suspendAt (running_enterTask h hs), taskStep_sectioned rfl,
    oneSection_dispatch (s := { s with sectioned := true }) h.running none_running]
  exact whenDispatchable_of h _

/-- The section at its place in the list, then on to the next one. -/
theorem taskStep_section {more : List (State → Result)} (w : Running t p s) (hf : IgnoresMode f)
    (h : f s = .next s1) (hr : s1.halted = false) :
    taskStep t (gs ++ f :: more) (suspendAt gs.length s) =
      nextSection (gs ++ f :: more).length (suspendAt gs.length s1) := by
  have ran : f (suspendAt gs.length s) = .next (suspendAt gs.length s1) := by rw [hf, h, mapNext]
  rw [taskStep_suspendAt w, List.drop_left, List.take_succ_cons, List.take_zero,
    runSections_step (s1 := suspendAt gs.length s1) ran hr (runSections_nil _), andThen_next]
  exact if_neg (by simp [suspendAt, hr])

theorem nextSection_more {n : Nat} (hs : OnlyRun t p s) (hk : k + 1 < n) :
    nextSection n (suspendAt k s) = .next (suspendAt (k + 1) s) := by
  obtain ⟨m, x, hs⟩ := hs
  simp [nextSection, suspendAt, hs, hk]

/-- After the last section the step returns as the whole run does. -/
theorem nextSection_last (hs : OnlyRun t p s) (h : leaveTask s = .next s') :
    nextSection (k + 1) (suspendAt k s) = .next { s' with sectioned := true } := by
  obtain ⟨m, x, hs⟩ := hs
  rw [leaveTask_cons hs] at h
  cases h
  simp [nextSection, suspendAt, hs, leaveTask]

/-! ## Section after section -/

theorem runTrace_cons_next {is : List Instr} (h : exec i s = .next s1) : runTrace (i :: is) s = runTrace is s1 := by
  rw [runTrace, h]

theorem runTrace_cons_refused {is : List Instr} {q : Refusal} (h : exec i s = .refused q) :
    runTrace (i :: is) s = .refused q := by
  rw [runTrace, h]

/-- Sections before the last, each a step, stand where the sections in order stand. -/
theorem runTrace_sections {more : List (State → Result)} (hm : more ≠ [])
    (hi : ∀ s, exec i s = taskStep t (fs ++ gs ++ more) s) (sep : ∀ g ∈ gs, Separable g) (w : Running t p s)
    (h : runSections gs s = .next s1) (hr : s1.halted = false) (is : List Instr) :
    Running t p s1 ∧
      runTrace (List.replicate gs.length i ++ is) (suspendAt fs.length s) =
        runTrace is (suspendAt (fs ++ gs).length s1) := by
  induction gs generalizing fs s with
  | nil =>
    cases h
    exact ⟨w, by simp⟩
  | cons g gs ih =>
    obtain ⟨hg, sep⟩ := List.forall_mem_cons.1 sep
    obtain ⟨s2, h2, hr2, hrest⟩ := andThen_next_running h hr
    have w2 : Running t p s2 := w.after hg h2 hr2
    have room : fs.length + 1 < (fs ++ g :: (gs ++ more)).length := by
      have := List.length_pos_iff.2 hm
      simp; omega
    have first : exec i (suspendAt fs.length s) = .next (suspendAt (fs.length + 1) s2) := by
      rw [hi, List.append_assoc, List.cons_append, taskStep_section w hg.ignoresMode h2 hr2,
        nextSection_more w2.stack room]
    obtain ⟨w1, rest⟩ := ih (fs := fs ++ [g]) (by simpa using hi) sep w2 hrest
    refine ⟨w1, ?_⟩
    rw [List.length_cons, List.replicate_succ, List.cons_append, runTrace_cons_next first]
    simpa using rest

/-- The first step of a section-by-section run is a step of the run entered. -/
theorem runTrace_enter (hi : ∀ s, exec i s = taskStep t fs s) (h : Dispatchable t s) (hs : s.stack = [])
    (is : List Instr) :
    runTrace (i :: is) { s with sectioned := true } = runTrace (i :: is) (suspendAt 0 (enterTask t s)) := by
  rw [runTrace, runTrace, hi, hi, taskStep_enter h hs]

/-- The last section as a step ends the trace in the state of the whole run. -/
theorem runTrace_last (hi : ∀ s, exec i s = taskStep t (gs ++ [f]) s) (hf : Separable f) (w : Running t p s)
    (h : f s = .next s1) (hr : s1.halted = false) (hl : leaveTask s1 = .next s') :
    runTrace [i] (suspendAt gs.length s) = .next { s' with sectioned := true } := by
  have step : exec i (suspendAt gs.length s) = .next { s' with sectioned := true } := by
    rw [hi, taskStep_section w hf.ignoresMode h hr, List.length_append]
    exact nextSection_last (w.after hf h hr).stack hl
  exact runTrace_cons_next step

/-- A run of sections that may each be taken by itself is the same section by section. -/
theorem runTrace_replicate_sections (hi : ∀ s, exec i s = taskStep t (gs ++ [f]) s)
    (sep : ∀ g ∈ gs ++ [f], Separable g) (h : Dispatchable t s) (hs : s.stack = []) (e : exec i s = .next s')
    (hr : s'.halted = false) :
    runTrace (List.replicate (gs.length + 1) i) { s with sectioned := true } = .next { s' with sectioned := true } := by
  obtain ⟨sepgs, sepf⟩ := List.forall_mem_append.1 sep
  obtain ⟨s1, hall, hr1, hl⟩ := taskStep_next_sections h ((hi s).symm.trans e) hr
  obtain ⟨s2, hgs, hr2, hf⟩ := runSections_append_running hall hr1 h.running
  obtain ⟨s3, hf, hr3, hnil⟩ := andThen_next_running hf hr1
  cases hnil
  obtain ⟨w2, before⟩ :=
    runTrace_sections (fs := []) (List.cons_ne_nil f []) hi sepgs (running_enterTask h hs) hgs hr2 [i]
  rw [List.replicate_succ, runTrace_enter hi h hs, ← List.replicate_succ, List.replicate_succ']
  exact before.trans (runTrace_last hi (sepf f (List.mem_singleton_self f)) w2 hf hr1 hl)

end

/-! ## `RXC` requests `FSTART` in its third section (R137, 42_frame_pipeline.md R181) -/

section
variable {s s1 s' : State}

/-- Unless halted after, the dispatcher reads after what it reads before with `FSTART` requested. -/
def RequestsFstart (s s' : State) : Prop := s'.halted = false → runOf s' = runOf (s.request .fstart)

/-- Copying a received frame requests `FSTART`. -/
theorem requestsFstart_copyFrame (p : List Byte) : Keeps RequestsFstart fun s =>
    andThen (memWrite .rgb 0 p s) fun s => .next (State.request .fstart { s with busy := true }) := by
  intro s s' hr h hr'
  obtain ⟨s1, stored, -, requested⟩ := andThen_next_running h hr'
  cases requested
  obtain ⟨-, same⟩ := keepsRun_memWrite .rgb 0 p s s1 hr stored hr'
  simp only [runOf, Prod.mk.injEq] at same ⊢
  obtain ⟨hp, hpend, hs⟩ := same
  exact ⟨hp, congrArg (PendingBits.set · .fstart true) hpend, hs⟩

/-- Section 3 of an `RXC` that goes on: a busy pipeline changes nothing the dispatcher reads, an idle one requests
`FSTART`. -/
theorem runOf_takeFrame (hr : s.halted = false) (h : takeFrame s = .next s1) (hr1 : s1.halted = false) :
    runOf s1 = runOf (if s.busy then s else s.request .fstart) := by
  cases hb : s.busy
  case true =>
    rw [takeFrame_busy hb] at h
    cases h
    rfl
  case false =>
    rw [takeFrame, hb, if_neg Bool.false_ne_true] at h
    exact keeps_memRead (R := RequestsFstart) (fun _ _ => nofun) (fun p _ => requestsFstart_copyFrame p) s s1 hr h hr1

/-- The sections of `RXC` before the one that may take a frame. -/
abbrev rxcBeginning : List (State → Result) := [countRun, releaseOrRaise .rx .rx]

theorem rxcBeginning_separable : ∀ f ∈ rxcBeginning, Separable f := by
  simp only [List.forall_mem_cons]
  exact ⟨separable_countRun, separable_releaseOrRaise _ _, List.forall_mem_nil _⟩

theorem rxcBeginning_keepsBusy : Keeps (KeepsReading State.busy) (runSections rxcBeginning) := by
  refine keeps_runSections keepsReading_refl keepsReading_trans ?_
  simp only [List.forall_mem_cons]
  exact ⟨keeps_next fun _ hr => ⟨hr, rfl⟩,
    keeps_releaseOrRaise keepsReading_trans keepsReading_halt .rx fun _ hr => ⟨hr, rfl⟩, List.forall_mem_nil _⟩

/-- Three section steps of `RXC`, the third of which may request `FSTART`. -/
theorem runTrace_rxc_three {s2 s3 : State} (h : Dispatchable .rxc s) (hs : s.stack = [])
    (h2 : runSections rxcBeginning (enterTask .rxc s) = .next s2) (hr2 : s2.halted = false)
    (h3 : takeFrame s2 = .next s3) (hr3 : s3.halted = false) :
    Running .rxc s.curPrio s2 ∧ OnlyRun .rxc s.curPrio s3 ∧
      runOf s3 = runOf (if s.busy then s2 else s2.request .fstart) ∧
      runTrace (List.replicate 4 .rxc) { s with sectioned := true } = runTrace [.rxc] (suspendAt 3 s3) := by
  have hi : ∀ s, exec .rxc s = taskStep .rxc rxcSections s := fun _ => rfl
  obtain ⟨w2, two⟩ := runTrace_sections (fs := []) (List.cons_ne_nil takeFrame [submitOrRaise .rx .rx]) hi
    rxcBeginning_separable (running_enterTask h hs) h2 hr2 [.rxc, .rxc]
  have busy : s2.busy = s.busy := (rxcBeginning_keepsBusy (enterTask .rxc s) s2 h.running h2 hr2).2
  have read3 : runOf s3 = runOf (if s.busy then s2 else s2.request .fstart) := busy ▸ runOf_takeFrame hr2 h3 hr3
  have only3 : OnlyRun .rxc s.curPrio s3 := onlyRun_of_runOf_eq read3 (by split <;> exact w2.stack)
  have third : exec .rxc (suspendAt 2 s2) = .next (suspendAt 3 s3) :=
    (taskStep_section (gs := rxcBeginning) w2 ignoresMode_takeFrame h3 hr3).trans (nextSection_more only3 (by decide))
  exact ⟨w2, only3, read3, (runTrace_enter hi h hs _).trans (two.trans (runTrace_cons_next third))⟩

/-- `RXC` section by section: the whole run, unless the `FSTART` it requests outranks it. -/
theorem runTrace_rxc_sections (h : Dispatchable .rxc s) (hs : s.stack = []) (e : exec .rxc s = .next s')
    (hr : s'.halted = false) :
    runTrace (List.replicate 4 .rxc) { s with sectioned := true } =
      if s.busy = false ∧ Config.prio (.irq .rxc) < Config.prio (.irq .fstart)
      then .refused (.preempted .rxc) else .next { s' with sectioned := true } := by
  obtain ⟨s4, hall, hr4, hl⟩ := taskStep_next_sections (fs := rxcSections) h e hr
  obtain ⟨s2, h2, hr2, hrest⟩ := runSections_append_running (gs := rxcBeginning) hall hr4 h.running
  obtain ⟨s3, h3, hr3, hrest⟩ := andThen_next_running hrest hr4
  obtain ⟨_, h4, -, ⟨⟩⟩ := andThen_next_running hrest hr4
  obtain ⟨w2, only3, read3, three⟩ := runTrace_rxc_three h hs h2 hr2 h3 hr3
  rw [three]
  split_ifs with outranked
  · obtain ⟨idle, above⟩ := outranked
    simp only [idle, Bool.false_eq_true, if_false, runOf, Prod.mk.injEq] at read3
    obtain ⟨prio3, pend3, -⟩ := read3
    have requested : s3.pend.get .fstart = true := by rw [pend3]; exact get_set_same s2.pend .fstart true
    have below : s3.curPrio < Config.prio (.irq .fstart) := by rw [prio3]; exact w2.prio.trans_lt above
    exact runTrace_cons_refused (taskStep_preempted hr3 only3 (by decide) requested below rxcSections)
  · have w3 : Running .rxc s.curPrio s3 := by
      cases hb : s.busy <;> rw [hb] at read3
      case true => exact w2.of_runOf_eq hr3 read3
      case false =>
        exact (w2.request (Nat.le_of_not_lt fun above => outranked ⟨hb, above⟩)).of_runOf_eq hr3 read3
    exact runTrace_last (gs := [countRun, releaseOrRaise .rx .rx, takeFrame]) (fun _ => rfl)
      (separable_submitOrRaise .rx .rx) w3 h4 hr4 hl

end

/-- Settles O19, by induction on the sections of a run; `RXC` separately, for the `FSTART` it may request. -/
theorem sectionsOneByOneAreTheWholeRun : Obligations.SectionsOneByOneAreTheWholeRun := by
  unfold Obligations.SectionsOneByOneAreTheWholeRun
  intro s s' hs hr
  refine ⟨fun h e => ?_, fun h e => ?_, fun h e => ?_, fun h e => ?_, fun h e => runTrace_rxc_sections h hs e hr⟩
  · exact runTrace_replicate_sections (gs := fstartSections.take 2) (fun _ => rfl) fstartSections_separable h hs e hr
  · exact runTrace_replicate_sections (gs := ledcSections.take 2) (fun _ => rfl) ledcSections_separable h hs e hr
  · exact runTrace_replicate_sections (gs := latchSections.take 3) (fun _ => rfl) latchSections_separable h hs e hr
  · exact runTrace_replicate_sections (gs := teleSections.take 8) (fun _ => rfl) teleSections_separable h hs e hr

end Sys2Proof.Proofs
end

section
/-! `SUBMIT` and `RELEASE` as calls, the beats and `XFERERR` (41_dma_buffers.md R151 to R156). -/

namespace Sys2Proof.Proofs

open Sys2Proof Sys2Proof.Machine Sys2Proof.Laws

variable {s : State} {b : DmaBuf} {c : Channel}

/-! ## `SUBMIT` and `RELEASE` (R151, R152) -/

theorem callSubmit_cpu (h : s.owner b = .cpu) :
    callSubmit b c s = .next (((s.setOwner b .dma).restart c).returning .ok) := by
  rw [callSubmit, submit_cpu h]

theorem callSubmit_dma (h : s.owner b = .dma) : callSubmit b c s = .next (s.returning .errBusy) := by
  rw [callSubmit, submit_dma h]

theorem owner_updChan (s : State) (c : Channel) (f : ∀ width, DmaChannel width → DmaChannel width) (b : DmaBuf) :
    (s.updChan c f).owner b = s.owner b := by cases c <;> cases b <;> rfl

/-- Settles O20: the owner decides between the two answers. -/
theorem submitStartsATransfer : Obligations.SubmitStartsATransfer := by
  unfold Obligations.SubmitStartsATransfer
  intro b s hr
  constructor
  · intro cpu
    have owned : ((s.setOwner b .dma).restart b.channel).owner b = .dma := by
      rw [owner_updChan, owner_setOwner, if_pos rfl]
    exact ⟨_, (whenRunning_running hr _).trans (callSubmit_cpu cpu), owned,
      restart_chanCnt (s.setOwner b .dma) b.channel, restart_chanDone (s.setOwner b .dma) b.channel,
      restart_chanErr (s.setOwner b .dma) b.channel, rfl, rfl⟩
  · intro dma
    exact (whenRunning_running hr _).trans (callSubmit_dma dma)

theorem release_done (ho : s.owner b = .dma) (he : s.chanErr c = .none) (hd : s.chanDone c = true) :
    release b c s = (s.setOwner b .cpu, .ok) := by
  simp [release, ho, he, hd]

/-- An error is looked at before completion. -/
theorem release_err (ho : s.owner b = .dma) (he : s.chanErr c ≠ .none) :
    release b c s = (s.setOwner b .cpu, .err (s.chanErr c)) := by
  simp [release, ho, he]

theorem release_incomplete (h : s.owner b = .cpu ∨ (s.chanErr c = .none ∧ s.chanDone c = false)) :
    release b c s = (s, .incomplete) := by
  rcases h with ho | ⟨he, hd⟩
  · rw [release, if_pos ho]
  · simp [release, he, hd]

/-- Settles O21: the three answers of `release`, each as the call keeps it. -/
theorem releaseReturnsOwnership : Obligations.ReleaseReturnsOwnership := by
  unfold Obligations.ReleaseReturnsOwnership
  intro b s hr
  refine ⟨fun ho he hd => ?_, fun ho he => ?_, fun h => ?_⟩ <;> refine (whenRunning_running hr _).trans ?_
  · rw [callRelease, release_done ho he hd]
    rfl
  · rw [callRelease, release_err ho he]
    rfl
  · rw [callRelease, release_incomplete h]
    rfl

/-! ## The beats (R153 to R155) -/

/-- Settles O22: the byte of a transfer in flight is stored; of the others the error flag tells the first from the
later ones. -/
theorem rxbyteStoresOrOverruns : Obligations.RxbyteStoresOrOverruns := by
  unfold Obligations.RxbyteStoresOrOverruns
  intro v s hr
  refine ⟨fun ho hd he hc => ?_, fun h he => ?_, fun he => ?_⟩ <;> refine (whenRunning_running hr _).trans ?_
  · exact rxBeat_store v (inFlight_iff.2 ⟨ho, hd, he⟩) hc
  · have hf : s.inFlight .rx .rx = false := inFlight_false_iff.2 (h.imp_right .inl)
    rw [rxBeat_lost v hf, if_pos he]
  · have hf : s.inFlight .rx .rx = false := inFlight_false_iff.2 (.inr (.inr he))
    rw [rxBeat_lost v hf, if_neg he]

theorem ledBeat_noTransfer (h : s.inFlight .txled .led = false) : ledBeat s = .refused (.noTransfer .led) := by
  rw [ledBeat, h, if_neg Bool.false_ne_true]

/-- Settles O23: the cell read is the one sent. -/
theorem ledcellSendsTheNextCell : Obligations.LedcellSendsTheNextCell := by
  unfold Obligations.LedcellSendsTheNextCell
  intro s hr
  refine ⟨fun d ho hd he hc hv => ?_, fun h => ?_⟩ <;> refine (whenRunning_running hr _).trans ?_
  · have hf : s.inFlight .txled .led = true := inFlight_iff.2 ⟨ho, hd, he⟩
    rw [ledBeat_send hf hc hv, sendCell_eq d hf]
  · exact ledBeat_noTransfer (inFlight_false_iff.2 h)

theorem telBeat_noTransfer (h : s.inFlight .txt .tel = false) : telBeat s = .refused (.noTransfer .tel) := by
  rw [telBeat, h, if_neg Bool.false_ne_true]

/-- Settles O24: the byte read is the one sent. -/
theorem telbyteSendsTheNextByte : Obligations.TelbyteSendsTheNextByte := by
  unfold Obligations.TelbyteSendsTheNextByte
  intro s hr
  refine ⟨fun v ho hd he hc hv => ?_, fun h => ?_⟩ <;> refine (whenRunning_running hr _).trans ?_
  · have hf : s.inFlight .txt .tel = true := inFlight_iff.2 ⟨ho, hd, he⟩
    rw [telBeat_send hf hc hv, sendByte_eq v hf]
  · exact telBeat_noTransfer (inFlight_false_iff.2 h)

/-! ## `XFERERR` (R156, 30_encoding.md R107) -/

section
variable {kind : XferErr}

theorem kindFits_dmaErr (ch : Channel) : kindFits ch .dmaErr = true := rfl

theorem kindFits_rx (h : kind ≠ .none) : kindFits .rx kind = true := by simp [kindFits, h]

theorem kindFits_off_rx {ch : Channel} (hch : ch ≠ .rx) (h : kind ≠ .dmaErr) : kindFits ch kind = false := by
  simp [kindFits, hch, h]

theorem exec_xfererr_flags {ch : Channel} (hr : s.halted = false) (hk : kindFits ch kind = true)
    (hf : s.inFlight (channelBuf ch) ch = true) :
    exec (.xfererr ch kind) s = .next (raiseChannel ch (s.flagError ch kind)) := by
  refine (whenRunning_running hr _).trans ?_
  simp [hk, hf]

theorem exec_xfererr_noTransfer {ch : Channel} (hr : s.halted = false) (hk : kindFits ch kind = true)
    (hf : s.inFlight (channelBuf ch) ch = false) : exec (.xfererr ch kind) s = .refused (.noTransfer ch) := by
  refine (whenRunning_running hr _).trans ?_
  simp [hk, hf]

theorem exec_xfererr_kindNotOfChannel {ch : Channel} (hr : s.halted = false) (hk : kindFits ch kind = false) :
    exec (.xfererr ch kind) s = .refused .kindNotOfChannel := by
  refine (whenRunning_running hr _).trans ?_
  simp [hk]

end

/-- Settles O25: whether the kind fits and whether a transfer is in flight decide between the three outcomes. -/
theorem xfererrFlagsTheTransfer : Obligations.XfererrFlagsTheTransfer := by
  unfold Obligations.XfererrFlagsTheTransfer
  intro k s hr
  refine ⟨fun hk ho hd he => ?rx, fun ho hd he => ?led, fun ho hd he => ?tel, fun ch hf => ?noTransfer,
    fun hk hf => ?rxNoTransfer, fun ch hch hk => ?offRx, ?none⟩
  case rx => exact exec_xfererr_flags hr (kindFits_rx hk) (inFlight_iff.2 ⟨ho, hd, he⟩)
  case led => exact exec_xfererr_flags hr (kindFits_dmaErr .led) (inFlight_iff.2 ⟨ho, hd, he⟩)
  case tel => exact exec_xfererr_flags hr (kindFits_dmaErr .tel) (inFlight_iff.2 ⟨ho, hd, he⟩)
  case noTransfer => exact exec_xfererr_noTransfer hr (kindFits_dmaErr ch) hf
  case rxNoTransfer => exact exec_xfererr_noTransfer hr (kindFits_rx hk) hf
  case offRx => exact exec_xfererr_kindNotOfChannel hr (kindFits_off_rx hch hk)
  case none => exact exec_xfererr_kindNotOfChannel hr rfl

end Sys2Proof.Proofs
end

section
/-! What a task step answers from a state of the invariant, outcome by outcome, and which operations leave the pipeline
and the two output lines as they are (42_frame_pipeline.md R180 to R184, 44_telemetry.md R251). -/

namespace Sys2Proof.Proofs

open Sys2Proof Sys2Proof.Machine Sys2Proof.Laws

variable {s s' : State}

/-! ## What the pipeline and the output lines read -/

/-- What `pstate` reads (10_state.md R30). -/
def pipelineFlags (s : State) : Bool × Bool × Bool × Owner × Bool :=
  (s.halted, s.busy, s.pend.fstart, s.ownerTxled, s.latchRunning)

/-- What `LineOk` reads: the LED line and where the refresh stands. -/
def lineRecord (s : State) : List LedItem × Byte × Bool × Owner × BitVec 10 × Bool × Bool × Memory :=
  (s.ledOut, s.dutyReg, s.halted, s.ownerTxled, s.chLed.cnt, s.latchRunning, s.latchExpired, s.bufRgb)

/-- What `SerialOk` reads: the serial output and where the report in flight stands. -/
def serialRecord (s : State) : List Byte × Bool × Owner × BitVec 4 × Memory :=
  (s.serTx, s.halted, s.ownerTxt, s.chTel.cnt, s.bufTxt)

/-- The pipeline and both lines read the same before and after. -/
structure SameOutputs (s s' : State) : Prop where
  pipeline : pipelineFlags s' = pipelineFlags s
  line : lineRecord s' = lineRecord s
  serial : serialRecord s' = serialRecord s

/-- A fault that leaves what both lines have sent (60_exceptions.md R297). -/
structure HaltsInSilence (s s' : State) : Prop where
  halted : s'.halted = true
  ledOut : s'.ledOut = s.ledOut
  serTx : s'.serTx = s.serTx

theorem sameOutputs_trans (a b c : State) (h : SameOutputs a b) (k : SameOutputs b c) : SameOutputs a c :=
  ⟨k.pipeline.trans h.pipeline, k.line.trans h.line, k.serial.trans h.serial⟩

theorem HaltsInSilence.not_running (h : HaltsInSilence s s') (hr : s'.halted = false) : False :=
  nomatch h.halted.symm.trans hr

/-! ## The tasks -/

/-- A task step of a state of the invariant that answers next was dispatchable. -/
theorem dispatchable_of_inv {t : Irq} {fs : List (State → Result)} (inv : Inv s)
    (h : taskStep t fs s = .next s') : Dispatchable t s := dispatchable_of_taskStep_next inv.mode.sectioned h

/-- Two answers to one operation are one state. -/
theorem next_unique {r : Result} {s1 : State} (h : r = .next s') (e : r = .next s1) : s' = s1 := by
  cases h.symm.trans e; rfl

theorem rxc_next (inv : Inv s) (h : exec .rxc s = .next s') :
    (s.busy = false ∧ ∃ p, s' =
      { s with
        contextSwitches := s.contextSwitches + 1, bufRgb := s.bufRgb.writeRange 0 p, busy := true,
        pend := { s.pend with rxc := false, fstart := true }, ownerRx := .dma, chRx := idleChannel }) ∨
    (s.busy = true ∧ SameOutputs s s') ∨ HaltsInSilence s s' := by
  have hd := dispatchable_of_inv inv h
  have tr := inv.transfers hd.running
  by_cases he : s.chRx.err = .none
  · have hdone : s.chRx.done = true := (tr.rxPend.1 hd.pending).resolve_right (not_not_intro he)
    obtain ⟨p, hp⟩ := readRange_of_writtenTo (tr.rxDone.1 hdone ▸ tr.rxWritten)
    cases hb : s.busy
    · exact .inl ⟨rfl, p, next_unique h (exec_rxc_accepts hd hb tr.rxArmed hdone he hp)⟩
    · cases next_unique h (exec_rxc_drops hd hb tr.rxArmed hdone he)
      exact .inr (.inl ⟨rfl, rfl, rfl, rfl⟩)
  · cases next_unique h (exec_rxc_error hd tr.rxArmed he)
    exact .inr (.inr ⟨rfl, rfl, rfl⟩)

theorem fstart_next (inv : Inv s) (h : exec .fstart s = .next s') :
    s.pend.fstart = true ∧ ∃ p, s.bufRgb.readRange 0 72 = some p ∧ s' =
      { s with
        contextSwitches := s.contextSwitches + 1, pend := { s.pend with fstart := false },
        bufTxled := s.bufTxled.writeRange 0 (enc p), ownerTxled := .dma, chLed := idleChannel } := by
  have hd := dispatchable_of_inv inv h
  obtain ⟨hb, ho, _⟩ := encoding_of_fstart (inv.pipeline hd.running) hd.pending
  obtain ⟨p, hp⟩ := readRange_of_writtenTo ((inv.transfers hd.running).rgbWritten hb)
  exact ⟨hd.pending, p, hp, next_unique h (exec_fstart_fills hd ho hp)⟩

theorem ledc_next (inv : Inv s) (h : exec .ledc s = .next s') :
    (s.ownerTxled = .dma ∧ s.chLed.cnt.toNat = 577 ∧ s' =
      { s with
        contextSwitches := s.contextSwitches + 1, pend := { s.pend with ledc := false }, ownerTxled := .cpu,
        latchRunning := true, latchExpired := false }) ∨
    HaltsInSilence s s' := by
  have hd := dispatchable_of_inv inv h
  obtain ⟨ho, hdone⟩ := refresh_over_of_ledc (inv.pipeline hd.running) hd.pending
  by_cases he : s.chLed.err = .none
  · exact .inl ⟨ho, ((inv.transfers hd.running).ledDone ho).1 (hdone he),
      next_unique h (exec_ledc_done hd ho (hdone he) he)⟩
  · cases next_unique h (exec_ledc_error hd ho he)
    exact .inr ⟨rfl, rfl, rfl⟩

theorem latch_next (inv : Inv s) (h : exec .latch s = .next s') :
    s.latchRunning = true ∧ s.latchExpired = true ∧ s' =
      { s with
        contextSwitches := s.contextSwitches + 1, pend := { s.pend with latch := false },
        latchRunning := false, latchExpired := false, busy := false, frames := s.frames + 1 } := by
  have hd := dispatchable_of_inv inv h
  obtain ⟨hl, hx⟩ := (inv.pipeline hd.running).latch.1 hd.pending
  exact ⟨hl, hx, next_unique h (exec_latch_ends hd)⟩

theorem tele_next (inv : Inv s) (h : exec .tele s = .next s') :
    ((s.ownerTxt = .cpu ∨ s.chTel.cnt.toNat = 13) ∧ s' =
      { s with
        pend := { s.pend with tele := false }, bufTxt := s.bufTxt.writeRange 0 (ser (snapshotOf s)),
        ownerTxt := .dma, chTel := idleChannel, contextSwitches := 0, frames := 0, sleepCycles := 0 }) ∨
    HaltsInSilence s s' := by
  have hd := dispatchable_of_inv inv h
  by_cases ho : s.ownerTxt = .dma
  · by_cases he : s.chTel.err = .none
    · cases hdone : s.chTel.done
      · cases next_unique h (exec_tele_busy hd ho hdone he)
        exact .inr ⟨rfl, rfl, rfl⟩
      · exact .inl ⟨.inr (((inv.transfers hd.running).telDone ho).1 hdone),
          next_unique h (exec_tele_reports hd (.inr ⟨hdone, he⟩))⟩
    · cases next_unique h (exec_tele_error hd ho he)
      exact .inr ⟨rfl, rfl, rfl⟩
  · have cpu := owner_eq_cpu ho
    exact .inl ⟨.inl cpu, next_unique h (exec_tele_reports hd (.inl cpu))⟩

/-! ## The beats and the environment's moves -/

/-- A cell that leaves is the next one of the encoded frame (43_ws2812b_encoder.md R221). -/
theorem ledcell_next (inv : Inv s) (h : exec .ledcell s = .next s') :
    s.ownerTxled = .dma ∧ s.chLed.cnt.toNat < 577 ∧
      ∃ p d, s.bufRgb.readRange 0 72 = some p ∧ (enc p)[s.chLed.cnt.toNat]? = some d ∧ s' =
        { s with
          dutyReg := d
          ledOut := s.ledOut ++ [.cell d]
          chLed := { cnt := s.chLed.cnt + 1, done := decide (s.chLed.cnt.toNat + 1 = 577), err := .none }
          pend := { s.pend with ledc := s.pend.ledc || decide (s.chLed.cnt.toNat + 1 = 577) } } := by
  obtain ⟨hr, h⟩ := whenRunning_eq_next.1 h
  obtain ⟨hf, -⟩ := require_eq_next.1 h
  have tr := inv.transfers hr
  obtain ⟨ho, hd, -⟩ := inFlight_iff.1 hf
  simp only [owner_txled, chanDone_led] at ho hd
  have hc : s.chLed.cnt.toNat < 577 := count_lt inv.counts.2.1 (tr.ledDone ho) hd
  obtain ⟨p, hp, hbuf⟩ := tr.ledFilled ho
  have hv := read_of_readRange hbuf hc
  exact ⟨ho, hc, p, _, hp, List.getElem?_eq_getElem (by rw [enc_length]; exact hc),
    (next_unique h (ledBeat_send hf hc hv)).trans (sendCell_eq _ hf)⟩

/-- A byte that leaves is the next one of the report in flight (44_telemetry.md R261). -/
theorem telbyte_next (inv : Inv s) (h : exec .telbyte s = .next s') :
    s.ownerTxt = .dma ∧ s.chTel.cnt.toNat < 13 ∧ ∃ v, s.bufTxt.read s.chTel.cnt.toNat = some v ∧ s' =
      { s with
        serTx := s.serTx ++ [v]
        chTel := { cnt := s.chTel.cnt + 1, done := decide (s.chTel.cnt.toNat + 1 = 13), err := .none } } := by
  obtain ⟨hr, h⟩ := whenRunning_eq_next.1 h
  obtain ⟨hf, -⟩ := require_eq_next.1 h
  have tr := inv.transfers hr
  obtain ⟨ho, hd, -⟩ := inFlight_iff.1 hf
  simp only [owner_txt, chanDone_tel] at ho hd
  have hc : s.chTel.cnt.toNat < 13 := count_lt inv.counts.2.2 (tr.telDone ho) hd
  obtain ⟨x, hx⟩ := tr.telFilled ho
  obtain ⟨v, hv⟩ := read_isSome_of_readRange hx hc
  exact ⟨ho, hc, v, hv, (next_unique h (telBeat_send hf hc hv)).trans (sendByte_eq v hf)⟩

theorem latchexp_next (h : exec .latchexp s = .next s') :
    s.latchRunning = true ∧ s.latchExpired = false ∧ s' =
      { s with
        latchExpired := true, pend := { s.pend with latch := true }, ledOut := s.ledOut ++ [.latch] } := by
  obtain ⟨_, h⟩ := whenRunning_eq_next.1 h
  obtain ⟨hl, ⟨⟩⟩ := require_eq_next.1 h
  simp only [Bool.and_eq_true, Bool.not_eq_true'] at hl
  exact ⟨hl.1, hl.2, rfl⟩

/-! ## Operations that leave the pipeline and the lines as they are -/

/-- `IDLE` writes counters and, for its section, the priority. -/
theorem idle_sameOutputs {d : U32} (h : exec (.idle d) s = .next s') : SameOutputs s s' := by
  obtain ⟨hr, h⟩ := whenRunning_eq_next.1 h
  obtain ⟨_, h⟩ := require_not_eq_next.1 h
  obtain ⟨_, h⟩ := require_not_eq_next.1 h
  have curPrio (s : State) (p : Nat) : SameOutputs s { s with curPrio := p } := ⟨rfl, rfl, rfl⟩
  refine keeps_atomicSection sameOutputs_trans curPrio .sleepCycles (fun s s' _ h => ?_) s s' hr h
  obtain ⟨s1, ⟨⟩, ⟨_, rfl⟩ | ⟨_, ⟨⟩⟩⟩ := andThen_eq_next.1 h <;> exact ⟨rfl, rfl, rfl⟩

/-- A byte received touches the receiver and `RXC`'s pending bit only. -/
theorem rxbyte_sameOutputs {v : Byte} (h : exec (.rxbyte v) s = .next s') : SameOutputs s s' := by
  obtain ⟨_, h⟩ := whenRunning_eq_next.1 h
  cases hf : s.inFlight .rx .rx
  · cases next_unique h (rxBeat_lost v hf)
    split <;> exact ⟨rfl, rfl, rfl⟩
  · cases next_unique h (rxBeat_store v hf (rxBeat_next_count hf h))
    exact ⟨rfl, rfl, rfl⟩

/-- An error flag is neither a count nor one of the pipeline's flags. -/
theorem xfererr_sameOutputs {ch : Channel} {kind : XferErr} (h : exec (.xfererr ch kind) s = .next s') :
    SameOutputs s s' := by
  obtain ⟨_, h⟩ := whenRunning_eq_next.1 h
  obtain ⟨_, h⟩ := require_not_eq_next.1 h
  obtain ⟨_, ⟨⟩⟩ := require_eq_next.1 h
  cases ch <;> exact ⟨rfl, rfl, rfl⟩

theorem teltick_sameOutputs (h : exec .teltick s = .next s') : SameOutputs s s' := by
  obtain ⟨_, ⟨⟩⟩ := whenRunning_eq_next.1 h
  exact ⟨rfl, rfl, rfl⟩

theorem cycadv_sameOutputs {n : U32} (h : exec (.cycadv n) s = .next s') : SameOutputs s s' := by
  obtain ⟨_, ⟨⟩⟩ := whenRunning_eq_next.1 h
  exact ⟨rfl, rfl, rfl⟩

end Sys2Proof.Proofs
end

section
/-! Every step keeps the shape of the LED line (42_frame_pipeline.md R186, 43_ws2812b_encoder.md R221, R222) and of the
serial output (44_telemetry.md R261). -/

namespace Sys2Proof.Proofs

open Sys2Proof Sys2Proof.Machine Sys2Proof.Laws

variable {s s' : State}

/-! ## The LED line -/

/-- Reading on after what has been read. -/
theorem ledPhase_append (n : Nat) (out more : List LedItem) :
    ledPhase n (out ++ more) = (ledPhase n out).bind fun m => ledPhase m more := by
  induction out generalizing n with
  | nil => rfl
  | cons item out ih =>
    cases item <;> (simp only [List.cons_append, ledPhase]; split <;> simp [ih])

theorem ledPhase_append_cell {n m : Nat} {out : List LedItem} (h : ledPhase n out = some m) (hm : m < 577) (d : Byte) :
    ledPhase n (out ++ [.cell d]) = some (m + 1) := by
  rw [ledPhase_append, h]
  exact if_pos hm

theorem ledPhase_append_latch {n : Nat} {out : List LedItem} (h : ledPhase n out = some 577) :
    ledPhase n (out ++ [.latch]) = some 0 := by
  rw [ledPhase_append, h]
  rfl

theorem refreshPosition_dma (h : s.ownerTxled = .dma) : refreshPosition s = s.chLed.cnt.toNat := if_pos h

theorem refreshPosition_cpu (h : s.ownerTxled = .cpu) :
    refreshPosition s = if s.latchRunning && !s.latchExpired then 577 else 0 := by
  rw [refreshPosition, if_neg (by simp [h])]
  rfl

/-- The shape of the line follows from where it stands. -/
theorem lineOk_of_running (here : ledPhase 0 s.ledOut = some (refreshPosition s))
    (current : s.ownerTxled = .dma → ∃ p earlier, s.bufRgb.readRange 0 Config.frameBytes = some p ∧
      s.ledOut = earlier ++ ((enc p).take s.chLed.cnt.toNat).map .cell)
    (low : s.ownerTxled = .cpu ∨ s.chLed.cnt.toNat = 0 ∨ s.chLed.cnt.toNat = 577 → s.dutyReg = Config.dutyReset) :
    LineOk s :=
  ⟨⟨_, here⟩, fun _ => here, fun _ => current, fun _ => low⟩

/-- `LineOk` reads the line's record only. -/
theorem lineOk_of_same (ok : LineOk s) (h : lineRecord s' = lineRecord s) : LineOk s' := by
  simp only [lineRecord, Prod.mk.injEq] at h
  obtain ⟨hout, hduty, hhalted, howner, hcnt, hrun, hexp, hrgb⟩ := h
  have position : refreshPosition s' = refreshPosition s := by simp only [refreshPosition, howner, hcnt, hrun, hexp]
  constructor
  · rw [hout]; exact ok.shape
  · rw [hout, hhalted, position]; exact ok.here
  · rw [hout, hhalted, howner, hcnt, hrgb]; exact ok.current
  · rw [hduty, hhalted, howner, hcnt]; exact ok.low

theorem lineOk_of_halt (ok : LineOk s) (h : HaltsInSilence s s') : LineOk s' :=
  ⟨h.ledOut ▸ ok.shape, fun hr => (h.not_running hr).elim, fun hr => (h.not_running hr).elim,
    fun hr => (h.not_running hr).elim⟩

theorem lineOk_resetTo (c0 : U32) (s : State) : LineOk (resetTo c0 s) :=
  lineOk_of_running rfl nofun fun _ => rfl

/-- A frame is taken by an idle pipeline only, which has no refresh in flight. -/
theorem rxc_lineOk (inv : Inv s) (ok : LineOk s) (hr : s.halted = false) (h : exec .rxc s = .next s') :
    LineOk s' := by
  rcases rxc_next inv h with ⟨hb, p, rfl⟩ | ⟨_, same⟩ | halt
  · obtain ⟨_, ho, _⟩ := (inv.pipeline hr).idle hb
    exact lineOk_of_running (ok.here hr) (fun dma => nomatch ho.symm.trans dma) (ok.low hr)
  · exact lineOk_of_same ok same.line
  · exact lineOk_of_halt ok halt

/-- A refresh begins on a low line, after a whole one. -/
theorem fstart_lineOk (inv : Inv s) (ok : LineOk s) (hr : s.halted = false) (h : exec .fstart s = .next s') :
    LineOk s' := by
  obtain ⟨hpend, p, hp, rfl⟩ := fstart_next inv h
  obtain ⟨_, ho, hl⟩ := encoding_of_fstart (inv.pipeline hr) hpend
  have here := ok.here hr
  rw [refreshPosition_cpu ho, hl] at here
  exact lineOk_of_running here (fun _ => ⟨p, s.ledOut, hp, (List.append_nil _).symm⟩) fun _ => ok.low hr (.inl ho)

/-- A cell sent is the next one of the frame, and the last one puts the line low. -/
theorem ledcell_lineOk (inv : Inv s) (ok : LineOk s) (hr : s.halted = false) (h : exec .ledcell s = .next s') :
    LineOk s' := by
  obtain ⟨ho, hc, p, d, hp, hd, rfl⟩ := ledcell_next inv h
  have count : (s.chLed.cnt + 1).toNat = s.chLed.cnt.toNat + 1 := cnt_succ (by omega)
  have here := ok.here hr
  rw [refreshPosition_dma ho] at here
  refine lineOk_of_running ?here (fun _ => ?current) ?low
  case here =>
    rw [refreshPosition_dma (by exact ho)]
    exact (ledPhase_append_cell here hc d).trans (congrArg some count.symm)
  case current =>
    obtain ⟨q, earlier, hq, hout⟩ := ok.current hr ho
    cases hp.symm.trans hq
    refine ⟨p, earlier, hp, ?_⟩
    dsimp only
    rw [count, List.take_add_one, hd, hout, List.append_assoc, List.map_append]
    rfl
  case low =>
    dsimp only
    rw [count]
    rintro (cpu | first | last)
    · cases ho.symm.trans cpu
    · cases first
    · rw [show s.chLed.cnt.toNat = 576 by omega, enc_getElem?_reset] at hd
      cases hd
      rfl

/-- The refresh is complete when the latch timer starts. -/
theorem ledc_lineOk (inv : Inv s) (ok : LineOk s) (hr : s.halted = false) (h : exec .ledc s = .next s') :
    LineOk s' := by
  rcases ledc_next inv h with ⟨ho, hc, rfl⟩ | halt
  · have here := ok.here hr
    rw [refreshPosition_dma ho, hc] at here
    exact lineOk_of_running here nofun fun _ => ok.low hr (.inr (.inr hc))
  · exact lineOk_of_halt ok halt

/-- The timer's signal ends the refresh on the line. -/
theorem latchexp_lineOk (inv : Inv s) (ok : LineOk s) (hr : s.halted = false) (h : exec .latchexp s = .next s') :
    LineOk s' := by
  obtain ⟨hl, hx, rfl⟩ := latchexp_next h
  have ho := (latching_of_running (inv.pipeline hr) hl).2
  have here := ok.here hr
  rw [refreshPosition_cpu ho, hl, hx] at here
  refine lineOk_of_running ?_ (fun dma => nomatch ho.symm.trans dma) (ok.low hr)
  rw [refreshPosition_cpu (by exact ho), Bool.not_true, Bool.and_false]
  exact ledPhase_append_latch here

/-- `LATCH` stops a timer that has signalled. -/
theorem latch_lineOk (inv : Inv s) (ok : LineOk s) (hr : s.halted = false) (h : exec .latch s = .next s') :
    LineOk s' := by
  obtain ⟨hl, hx, rfl⟩ := latch_next inv h
  have ho := (latching_of_running (inv.pipeline hr) hl).2
  have here := ok.here hr
  rw [refreshPosition_cpu ho, hl, hx] at here
  refine lineOk_of_running ?_ (fun dma => nomatch ho.symm.trans dma) (ok.low hr)
  rw [refreshPosition_cpu (by exact ho)]
  exact here

theorem tele_lineOk (inv : Inv s) (ok : LineOk s) (h : exec .tele s = .next s') : LineOk s' := by
  rcases tele_next inv h with ⟨_, rfl⟩ | halt
  · exact lineOk_of_same ok rfl
  · exact lineOk_of_halt ok halt

/-- An operation other than `RESET` that answers next ran unhalted (60_exceptions.md R298). -/
theorem exec_next_running {i : Instr} (hi : i.mayStandInTrace = true) (hreset : ∀ c0, i ≠ .reset c0)
    (h : exec i s = .next s') : s.halted = false := by
  cases i with
  | tele | rxc | fstart | ledc | latch => exact taskStep_next_running h
  | reset c0 => exact absurd rfl (hreset c0)
  | idle | rxbyte | ledcell | telbyte | latchexp | teltick | cycadv | xfererr => exact (whenRunning_eq_next.1 h).1
  | _ => cases hi

/-- Every operation of a trace keeps the LED line. -/
theorem exec_lineOk {i : Instr} (inv : Inv s) (ok : LineOk s) (hi : i.mayStandInTrace = true ∨ i.cls = .reserved)
    (h : exec i s = .next s') : LineOk s' := by
  have hr (hi : i.mayStandInTrace = true) (hreset : ∀ c0, i ≠ .reset c0) := exec_next_running hi hreset h
  cases i with
  | rxc => exact rxc_lineOk inv ok (hr rfl nofun) h
  | fstart => exact fstart_lineOk inv ok (hr rfl nofun) h
  | ledc => exact ledc_lineOk inv ok (hr rfl nofun) h
  | latch => exact latch_lineOk inv ok (hr rfl nofun) h
  | ledcell => exact ledcell_lineOk inv ok (hr rfl nofun) h
  | latchexp => exact latchexp_lineOk inv ok (hr rfl nofun) h
  | tele => exact tele_lineOk inv ok h
  | telbyte =>
    obtain ⟨_, _, v, _, rfl⟩ := telbyte_next inv h
    exact lineOk_of_same ok rfl
  | reset c0 => cases h; exact lineOk_resetTo c0 s
  | idle d => exact lineOk_of_same ok (idle_sameOutputs h).line
  | rxbyte v => exact lineOk_of_same ok (rxbyte_sameOutputs h).line
  | xfererr ch kind => exact lineOk_of_same ok (xfererr_sameOutputs h).line
  | teltick => exact lineOk_of_same ok (teltick_sameOutputs h).line
  | cycadv n => exact lineOk_of_same ok (cycadv_sameOutputs h).line
  | reserved06 | reserved07 | reserved0F | reserved1E | reserved1F => cases h
  | _ => simp [Instr.mayStandInTrace, Instr.cls] at hi

/-! ## The serial output -/

/-- `SerialOk` reads the serial record only. -/
theorem serialOk_of_same (ok : SerialOk s) (h : serialRecord s' = serialRecord s) : SerialOk s' := by
  simp only [serialRecord, Prod.mk.injEq] at h
  obtain ⟨hout, hhalted, howner, hcnt, hbuf⟩ := h
  unfold SerialOk
  rw [hout, hhalted, howner, hcnt, hbuf]
  exact ok

theorem serialOk_of_halt (ok : SerialOk s) (h : HaltsInSilence s s') : SerialOk s' := by
  obtain ⟨xs, x, k, hk, hout, -⟩ := ok
  exact ⟨xs, x, k, hk, h.serTx.trans hout, fun hr => (h.not_running hr).elim, fun hr => (h.not_running hr).elim⟩

theorem serialOk_resetTo (c0 : U32) (s : State) : SerialOk (resetTo c0 s) :=
  ⟨[], zeroSnapshot, 0, by decide, rfl, fun _ _ => rfl, fun _ => nofun⟩

/-- Between reports, the serial output is whole reports. -/
theorem serTx_eq_reports (ok : SerialOk s) (hr : s.halted = false)
    (h : s.ownerTxt = .cpu ∨ s.chTel.cnt.toNat = 13) : ∃ xs : List Snapshot, s.serTx = xs.flatMap ser := by
  obtain ⟨xs, x, k, -, hout, hcpu, hdma⟩ := ok
  have none_sent : k = 0 := by
    cases ho : s.ownerTxt
    · exact hcpu hr ho
    · rw [← (hdma hr ho).1, h.resolve_left (by simp [ho])]
      rfl
  exact ⟨xs, by rw [hout, none_sent, List.take_zero, List.append_nil]⟩

/-- While a report is in flight, whole reports and what it has sent. -/
theorem serialOk_of_dma {xs : List Snapshot} {x : Snapshot} {k : Nat} (ho : s.ownerTxt = .dma) (hk : k < 13)
    (hout : s.serTx = xs.flatMap ser ++ (ser x).take k) (hcnt : s.chTel.cnt.toNat % 13 = k)
    (hbuf : s.bufTxt.readRange 0 13 = some (ser x)) : SerialOk s :=
  ⟨xs, x, k, hk, hout, fun _ cpu => (nomatch ho.symm.trans cpu), fun _ _ => ⟨hcnt, hbuf⟩⟩

/-- A report begins after whole reports. -/
theorem tele_serialOk (inv : Inv s) (ok : SerialOk s) (hr : s.halted = false) (h : exec .tele s = .next s') :
    SerialOk s' := by
  rcases tele_next inv h with ⟨hfree, rfl⟩ | halt
  · obtain ⟨xs, hout⟩ := serTx_eq_reports ok hr hfree
    exact serialOk_of_dma (k := 0) rfl (by decide) (hout.trans (List.append_nil _).symm) rfl
      (readRange_writeRange_of_length _ _ _ _ (ser_length _))
  · exact serialOk_of_halt ok halt

/-- A byte sent is the next one of the report, and the thirteenth makes it whole. -/
theorem telbyte_serialOk (inv : Inv s) (ok : SerialOk s) (hr : s.halted = false) (h : exec .telbyte s = .next s') :
    SerialOk s' := by
  obtain ⟨ho, hc, v, hv, rfl⟩ := telbyte_next inv h
  have count : (s.chTel.cnt + 1).toNat = s.chTel.cnt.toNat + 1 := cnt_succ (by omega)
  obtain ⟨xs, x, k, -, hout, -, hdma⟩ := ok
  obtain ⟨hk, hbuf⟩ := hdma hr ho
  replace hk : k = s.chTel.cnt.toNat := hk.symm.trans (Nat.mod_eq_of_lt hc)
  have hx : (ser x)[s.chTel.cnt.toNat]? = some v := by
    rw [← hv, read_of_readRange hbuf hc, List.getElem?_eq_getElem]
  have sent : s.serTx ++ [v] = xs.flatMap ser ++ (ser x).take (s.chTel.cnt.toNat + 1) := by
    rw [hout, hk, List.take_add_one, hx, List.append_assoc]
    rfl
  by_cases last : s.chTel.cnt.toNat + 1 = 13
  · rw [last, List.take_of_length_le (ser_length x).le] at sent
    have whole : s.serTx ++ [v] = (xs ++ [x]).flatMap ser ++ (ser x).take 0 := by simpa using sent
    exact serialOk_of_dma ho (by decide) whole (by rw [count, last]) hbuf
  · have below : s.chTel.cnt.toNat + 1 < 13 := by omega
    exact serialOk_of_dma ho below sent (by rw [count, Nat.mod_eq_of_lt below]) hbuf

/-- Every operation of a trace keeps the serial output. -/
theorem exec_serialOk {i : Instr} (inv : Inv s) (ok : SerialOk s) (hi : i.mayStandInTrace = true ∨ i.cls = .reserved)
    (h : exec i s = .next s') : SerialOk s' := by
  have hr (hi : i.mayStandInTrace = true) (hreset : ∀ c0, i ≠ .reset c0) := exec_next_running hi hreset h
  cases i with
  | tele => exact tele_serialOk inv ok (hr rfl nofun) h
  | telbyte => exact telbyte_serialOk inv ok (hr rfl nofun) h
  | reset c0 => cases h; exact serialOk_resetTo c0 s
  | rxc =>
    rcases rxc_next inv h with ⟨_, p, rfl⟩ | ⟨_, same⟩ | halt
    · exact serialOk_of_same ok rfl
    · exact serialOk_of_same ok same.serial
    · exact serialOk_of_halt ok halt
  | ledc =>
    rcases ledc_next inv h with ⟨_, _, rfl⟩ | halt
    · exact serialOk_of_same ok rfl
    · exact serialOk_of_halt ok halt
  | fstart => obtain ⟨_, p, _, rfl⟩ := fstart_next inv h; exact serialOk_of_same ok rfl
  | latch => obtain ⟨_, _, rfl⟩ := latch_next inv h; exact serialOk_of_same ok rfl
  | ledcell => obtain ⟨_, _, p, d, _, _, rfl⟩ := ledcell_next inv h; exact serialOk_of_same ok rfl
  | latchexp => obtain ⟨_, _, rfl⟩ := latchexp_next h; exact serialOk_of_same ok rfl
  | idle d => exact serialOk_of_same ok (idle_sameOutputs h).serial
  | rxbyte v => exact serialOk_of_same ok (rxbyte_sameOutputs h).serial
  | xfererr ch kind => exact serialOk_of_same ok (xfererr_sameOutputs h).serial
  | teltick => exact serialOk_of_same ok (teltick_sameOutputs h).serial
  | cycadv n => exact serialOk_of_same ok (cycadv_sameOutputs h).serial
  | reserved06 | reserved07 | reserved0F | reserved1E | reserved1F => cases h
  | _ => simp [Instr.mayStandInTrace, Instr.cls] at hi

/-- Settles O58: operation by operation; what a step takes off the trace neither line reads. -/
theorem stepKeepsTheOutputLines : Obligations.StepKeepsTheOutputLines := by
  unfold Obligations.StepKeepsTheOutputLines
  constructor
  · intro s s' inv ok h
    obtain ⟨i, rest, _, hi, hs⟩ := step_eq_next inv.mode.calls h
    exact exec_lineOk (inv_unread inv s.cycleCounter s.sleepCycles rest s.pend.tele) (lineOk_of_same ok rfl) hi hs
  · intro s s' inv ok h
    obtain ⟨i, rest, _, hi, hs⟩ := step_eq_next inv.mode.calls h
    exact exec_serialOk (inv_unread inv s.cycleCounter s.sleepCycles rest s.pend.tele) (serialOk_of_same ok rfl) hi hs

end Sys2Proof.Proofs
end

section
/-! The pipeline's transitions (42_frame_pipeline.md R180), and its tasks one by one (R181 to R185). -/

namespace Sys2Proof.Proofs

open Sys2Proof Sys2Proof.Machine Sys2Proof.Laws

variable {s s' : State}

/-! ## The transition table -/

theorem pstate_of_same (h : pipelineFlags s' = pipelineFlags s) : pstate s' = pstate s := by
  simp only [pipelineFlags, Prod.mk.injEq] at h
  obtain ⟨hhalted, hbusy, hfstart, howner, hrun⟩ := h
  simp only [pstate, hhalted, hbusy, hfstart, howner, hrun]

theorem pstate_idle (hr : s.halted = false) (hb : s.busy = false) : pstate s = some .idle := by simp [pstate, hr, hb]

theorem pstate_encoding (hr : s.halted = false) (hb : s.busy = true) (hf : s.pend.fstart = true) :
    pstate s = some .encoding := by simp [pstate, hr, hb, hf]

theorem pstate_transmitting (hr : s.halted = false) (hb : s.busy = true) (hf : s.pend.fstart = false)
    (ho : s.ownerTxled = .dma) : pstate s = some .transmitting := by simp [pstate, hr, hb, hf, ho]

theorem pstate_latching (hr : s.halted = false) (hb : s.busy = true) (hf : s.pend.fstart = false)
    (ho : s.ownerTxled = .cpu) (hl : s.latchRunning = true) : pstate s = some .latching := by
  simp [pstate, hr, hb, hf, ho, hl]

/-- Every operation but the four tasks of the pipeline keeps its flags, or halts. -/
theorem exec_pipelineFlags {i : Instr} (inv : Inv s) (hi : i.mayStandInTrace = true) (hreset : ∀ c0, i ≠ .reset c0)
    (hmove : i ∉ [.rxc, .fstart, .ledc, .latch]) (h : exec i s = .next s') (hr' : s'.halted = false) :
    pipelineFlags s' = pipelineFlags s := by
  cases i with
  | rxc | fstart | ledc | latch => simp at hmove
  | reset c0 => exact absurd rfl (hreset c0)
  | tele =>
    rcases tele_next inv h with ⟨_, rfl⟩ | halt
    · rfl
    · exact (halt.not_running hr').elim
  | ledcell => obtain ⟨_, _, p, d, _, _, rfl⟩ := ledcell_next inv h; rfl
  | telbyte => obtain ⟨_, _, v, _, rfl⟩ := telbyte_next inv h; rfl
  | latchexp => obtain ⟨_, _, rfl⟩ := latchexp_next h; rfl
  | idle d => exact (idle_sameOutputs h).pipeline
  | rxbyte v => exact (rxbyte_sameOutputs h).pipeline
  | xfererr ch kind => exact (xfererr_sameOutputs h).pipeline
  | teltick => exact (teltick_sameOutputs h).pipeline
  | cycadv n => exact (cycadv_sameOutputs h).pipeline
  | _ => cases hi

/-- Settles O60: the four tasks move the pipeline by their outcomes, and every other operation keeps its flags. -/
theorem pipelineMovesAlongItsCycle : Obligations.PipelineMovesAlongItsCycle := by
  unfold Obligations.PipelineMovesAlongItsCycle
  intro i s s' inv hr hi hreset h hr'
  have pip := inv.pipeline hr
  cases i with
  | fstart =>
    obtain ⟨hf, p, -, rfl⟩ := fstart_next inv h
    have hb := (encoding_of_fstart pip hf).1
    exact .inl ⟨rfl, pstate_encoding hr hb hf, pstate_transmitting hr hb rfl rfl⟩
  | ledc =>
    rcases ledc_next inv h with ⟨ho, -, rfl⟩ | halt
    · obtain ⟨hb, hf, -⟩ := transmitting_of_dma pip ho
      exact .inr (.inl ⟨rfl, pstate_transmitting hr hb hf ho, pstate_latching hr hb hf rfl rfl⟩)
    · exact (halt.not_running hr').elim
  | latch =>
    obtain ⟨hl, -, rfl⟩ := latch_next inv h
    obtain ⟨hf, ho⟩ := latching_of_running pip hl
    have hb := busy_of_stage pip (.inr (.inr hl))
    exact .inr (.inr (.inl ⟨rfl, pstate_latching hr hb hf ho hl, pstate_idle hr rfl⟩))
  | rxc =>
    rcases rxc_next inv h with ⟨hb, p, rfl⟩ | ⟨hb, same⟩ | halt
    · exact .inr (.inr (.inr (.inl ⟨rfl, pstate_idle hr hb, pstate_encoding hr rfl rfl⟩)))
    · exact .inr (.inr (.inr (.inr ⟨pstate_of_same same.pipeline, nofun, nofun, nofun, fun _ => hb⟩)))
    · exact (halt.not_running hr').elim
  | reset c0 => exact absurd rfl (hreset c0)
  | tele | ledcell | telbyte | latchexp | idle | rxbyte | xfererr | teltick | cycadv =>
    have same := exec_pipelineFlags inv hi hreset (by simp) h hr'
    exact .inr (.inr (.inr (.inr ⟨pstate_of_same same, nofun, nofun, nofun, nofun⟩)))
  | _ => cases hi

end Sys2Proof.Proofs
end

section
/-! The frame pipeline's tasks and whole traces of it: frames received, a refresh, frames dropped, one cycle
(42_frame_pipeline.md R181 to R189, 30_encoding.md R106). -/

namespace Sys2Proof.Proofs

open Sys2Proof Sys2Proof.Machine Sys2Proof.Laws

variable {s s1 : State} {p : List Byte}

/-! ## The tasks one by one -/

/-- Settles O26: the run of the four sections, and the frame it copied reads back. -/
theorem rxcAcceptsAFrame : Obligations.RxcAcceptsAFrame := by
  unfold Obligations.RxcAcceptsAFrame
  intro s p h hb ho hd he hp
  exact ⟨exec_rxc_accepts h hb ho hd he hp, readRange_writeRange_of_length _ _ _ _ (readRange_length hp)⟩

/-- Settles O27: a busy pipeline skips the copy. -/
theorem rxcDropsAFrame : Obligations.RxcDropsAFrame := by
  unfold Obligations.RxcDropsAFrame
  exact fun _ h hb ho hd he => exec_rxc_drops h hb ho hd he

/-- Settles O29: the run of the three sections, and the encoded frame reads back. -/
theorem fstartFillsAndSubmits : Obligations.FstartFillsAndSubmits := by
  unfold Obligations.FstartFillsAndSubmits
  intro s p h ho hp
  exact ⟨exec_fstart_fills h ho hp, readRange_writeRange_of_length _ _ _ _ (enc_length p)⟩

/-- Settles O30: the release of a complete refresh answers `Ok`. -/
theorem ledcStartsTheLatchTimer : Obligations.LedcStartsTheLatchTimer := by
  unfold Obligations.LedcStartsTheLatchTimer
  exact fun _ h ho hd he => exec_ledc_done h ho hd he

/-- Settles O31: no section of `LATCH` can halt. -/
theorem latchEndsTheCycle : Obligations.LatchEndsTheCycle := by
  unfold Obligations.LatchEndsTheCycle
  exact fun _ h => exec_latch_ends h

theorem exec_latchexp_signals (hr : s.halted = false) (hl : s.latchRunning = true) (hx : s.latchExpired = false) :
    exec .latchexp s = .next
      { s with
        latchExpired := true, pend := { s.pend with latch := true }, ledOut := s.ledOut ++ [.latch] } :=
  (whenRunning_running hr _).trans (if_pos (by simp [hl, hx]))

/-- Settles O13: the timer's two flags and the halt decide between the three answers. -/
theorem latchexpSignalsOncePerStart : Obligations.LatchexpSignalsOncePerStart := by
  unfold Obligations.LatchexpSignalsOncePerStart
  refine ⟨fun s => exec_latchexp_signals, fun s hr h => ?quiet, fun s hh => ?halted⟩
  case quiet =>
    have not_armed : ¬ (s.latchRunning && !s.latchExpired) = true := by rcases h with h | h <;> simp [h]
    exact (whenRunning_running hr _).trans (if_neg not_armed)
  case halted => exact if_pos hh

/-! ## Traces in two parts -/

theorem runTrace_append {is js : List Instr} (h : runTrace is s = .next s1) :
    runTrace (is ++ js) s = runTrace js s1 := by
  induction is generalizing s with
  | nil => cases h; rfl
  | cons i is ih =>
    rw [List.cons_append]
    rw [runTrace] at h
    split at h
    · next hi => rw [runTrace_cons_next hi, ih h]
    · cases h
    · cases h

/-! ## Frames on the serial input (R106, 41_dma_buffers.md R153, R157) -/

/-- An unhalted machine of whole runs at the idle priority, its receiver armed at count 0 and `RXC` not pending. -/
structure AwaitingFrame (s : State) : Prop where
  running : s.halted = false
  whole : s.sectioned = false
  prio : s.curPrio = Config.prio .idle
  owned : s.ownerRx = .dma
  armed : s.chRx = idleChannel
  quiet : s.pend.rxc = false

theorem eq_idleChannel {width : Nat} {c : DmaChannel width} (hc : c.cnt = 0) (hd : c.done = false)
    (he : c.err = .none) : c = idleChannel := by
  cases c
  cases hc; cases hd; cases he
  rfl

/-- A count of 0 of the armed receiver, with nothing to report, is a transfer that has only begun. -/
theorem awaitingFrame_of_inv (inv : Inv s) (hr : s.halted = false) (hp : s.pend.rxc = false)
    (hc : s.chRx.cnt.toNat = 0) : AwaitingFrame s := by
  have tr := inv.transfers hr
  have idle : ¬ (s.chRx.done = true ∨ s.chRx.err ≠ .none) := fun h => by simp [tr.rxPend.2 h] at hp
  simp only [not_or, Bool.not_eq_true, not_not] at idle
  exact ⟨hr, inv.mode.sectioned, inv.priority hr, tr.rxArmed, eq_idleChannel (BitVec.eq_of_toNat_eq hc) idle.1 idle.2,
    hp⟩

/-- The state after the next bytes `vs` of a frame, at most as many as it lacks. -/
def afterReceived (vs : List Byte) (s : State) : State :=
  { s with
    bufRx := s.bufRx.writeRange s.chRx.cnt.toNat vs
    chRx :=
      { cnt := s.chRx.cnt + BitVec.ofNat 7 vs.length
        done := decide (s.chRx.cnt.toNat + vs.length = 72)
        err := .none }
    pend := { s.pend with rxc := s.pend.rxc || decide (s.chRx.cnt.toNat + vs.length = 72) } }

theorem afterReceived_cons {v : Byte} (vs : List Byte) (h : s.chRx.cnt.toNat + 1 < 72) :
    afterReceived vs (afterReceived [v] s) = afterReceived (v :: vs) s := by
  have count : (s.chRx.cnt + 1#7).toNat = s.chRx.cnt.toNat + 1 := cnt_succ (by omega)
  have total : s.chRx.cnt + 1#7 + BitVec.ofNat 7 vs.length = s.chRx.cnt + BitVec.ofNat 7 (vs.length + 1) :=
    cnt_one_add _ _
  have not_last : s.chRx.cnt.toNat + 1 ≠ 72 := by omega
  simp only [afterReceived, List.length_cons, List.length_nil, Nat.zero_add, count, total, writeRange_cons, not_last,
    decide_false, Bool.or_false, Nat.add_assoc, Nat.add_comm 1]

/-- Bytes of a frame in flight, one `RXBYTE` beat each. -/
theorem runTrace_frameTrace {v : Byte} {vs : List Byte} (hr : s.halted = false) (hf : s.inFlight .rx .rx = true)
    (hc : s.chRx.cnt.toNat + (vs.length + 1) ≤ 72) :
    runTrace (frameTrace (v :: vs)) s = .next (afterReceived (v :: vs) s) := by
  induction vs generalizing s v with
  | nil => exact runTrace_rxbyte_cons hr (rxBeat_store v hf hc)
  | cons w vs ih =>
    rw [List.length_cons] at hc
    have room : s.chRx.cnt.toNat + 1 < 72 := by omega
    have beat : rxBeat v s = .next (afterReceived [v] s) := rxBeat_store v hf (by omega)
    obtain ⟨-, count, more⟩ := rxBeat_stores hf (by omega) beat
    have others := ih (v := w) (s := afterReceived [v] s) hr (more.2 (by omega)) (by omega)
    rw [afterReceived_cons _ room] at others
    exact (runTrace_rxbyte_cons hr beat).trans others

/-- The state after a whole frame `p`. -/
def withFrame (p : List Byte) (s : State) : State :=
  { s with
    bufRx := s.bufRx.writeRange 0 p, chRx := { cnt := 72, done := true, err := .none },
    pend := { s.pend with rxc := true } }

theorem runTrace_wholeFrame (a : AwaitingFrame s) (hp : p.length = 72) :
    runTrace (frameTrace p) s = .next (withFrame p s) := by
  obtain ⟨v, vs, rfl⟩ := List.exists_cons_of_length_pos (l := p) (by omega)
  have count : s.chRx.cnt.toNat = 0 := by rw [a.armed]; rfl
  have hf : s.inFlight .rx .rx = true := inFlight_iff.2 ⟨a.owned, by simp [a.armed, idleChannel]⟩
  rw [runTrace_frameTrace a.running hf (by rw [count, ← List.length_cons, hp])]
  simp [afterReceived, hp, a.armed, idleChannel, withFrame]

theorem dispatchable_withFrame (a : AwaitingFrame s)
    (first : ∀ u, s.pend.get u = true → Config.prio (.irq u) ≤ Config.prio (.irq .rxc)) :
    Dispatchable .rxc (withFrame p s) where
  running := a.running
  pending := rfl
  unmasked := a.prio.trans_lt (prio_idle_lt .rxc)
  first u hu := by
    by_cases h : u = .rxc
    · rw [h]
    · exact first u ((get_set_other s.pend .rxc u true h).symm.trans hu)
  whole := a.whole

/-! ## Frames dropped (R187) -/

/-- A frame fed while busy, with its `RXC` run, changes the receive buffer and the count of runs. -/
theorem runTrace_droppedFrame (a : AwaitingFrame s) (hb : s.busy = true)
    (first : ∀ u, s.pend.get u = true → Config.prio (.irq u) ≤ Config.prio (.irq .rxc)) (hp : p.length = 72) :
    runTrace (frameTrace p ++ [.rxc]) s =
      .next { s with bufRx := s.bufRx.writeRange 0 p, contextSwitches := s.contextSwitches + 1 } := by
  have run := exec_rxc_drops (dispatchable_withFrame (p := p) a first) hb a.owned rfl rfl
  have same : { s.pend with rxc := false } = s.pend := by rw [← a.quiet]
  rw [runTrace_append (runTrace_wholeFrame a hp), runTrace_cons_next run, ← a.armed, ← a.owned]
  exact congrArg (fun q => Host.Outcome.next
    { s with bufRx := s.bufRx.writeRange 0 p, contextSwitches := s.contextSwitches + 1, pend := q }) same

/-- Frames fed while busy, each with its `RXC` run, change the receive buffer and the count of runs. -/
theorem runTrace_droppedFrames {ps : List (List Byte)} (a : AwaitingFrame s) (hb : s.busy = true)
    (first : ∀ u, s.pend.get u = true → Config.prio (.irq u) ≤ Config.prio (.irq .rxc))
    (hps : ∀ p ∈ ps, p.length = 72) :
    ∃ m, runTrace (ps.flatMap fun p => frameTrace p ++ [.rxc]) s =
      .next { s with bufRx := m, contextSwitches := s.contextSwitches + BitVec.ofNat 16 ps.length } := by
  induction ps generalizing s with
  | nil => exact ⟨s.bufRx, by simp [runTrace]⟩
  | cons p ps ih =>
    obtain ⟨hp, hps⟩ := List.forall_mem_cons.1 hps
    obtain ⟨m, rest⟩ :=
      ih (s := { s with bufRx := s.bufRx.writeRange 0 p, contextSwitches := s.contextSwitches + 1 })
        { a with } hb first hps
    refine ⟨m, ?_⟩
    rw [List.flatMap_cons, runTrace_append (runTrace_droppedFrame a hb first hp), rest, cnt_one_add, List.length_cons]

/-- Settles O32: by induction on the frames, each leaving a machine that awaits the next. -/
theorem framesWhileBusyAreDropped : Obligations.FramesWhileBusyAreDropped := by
  unfold Obligations.FramesWhileBusyAreDropped
  intro ps s inv hr hb hp first hc hps
  obtain ⟨m, run⟩ := runTrace_droppedFrames (awaitingFrame_of_inv inv hr hp hc) hb first hps
  exact ⟨_, run, hb, rfl, rfl, rfl, rfl, rfl, rfl, pstate_of_same rfl, rfl, rfl⟩

/-! ## A refresh (R221, 41_dma_buffers.md R154) -/

/-- Cells before the last of a refresh, one `LEDCELL` beat each. -/
theorem runTrace_ledcells {ds : List Byte} (hr : s.halted = false) (hf : s.inFlight .txled .led = true)
    (hc : s.chLed.cnt.toNat + ds.length ≤ 576)
    (hv : s.bufTxled.readRange s.chLed.cnt.toNat ds.length = some ds) :
    runTrace (List.replicate ds.length .ledcell) s = .next (afterCells ds s) := by
  induction ds generalizing s with
  | nil => rw [afterCells_nil]; rfl
  | cons d ds ih =>
    rw [List.length_cons] at hc hv
    obtain ⟨hfirst, hrest⟩ := readRange_cons hv
    have count : (afterCells [d] s).chLed.cnt.toNat = s.chLed.cnt.toNat + 1 := cnt_succ (by omega)
    have beat : exec .ledcell s = .next (afterCells [d] s) := by
      rw [← sendCell_eq_afterCells d (by omega)]
      exact (whenRunning_running hr _).trans (ledBeat_send hf (by omega) hfirst)
    have beats := ih (s := afterCells [d] s) hr ((inFlight_afterCells _ _).trans hf) (by omega)
      (by rw [count]; exact hrest)
    rw [afterCells_cons] at beats
    rw [List.length_cons, List.replicate_succ, runTrace_cons_next beat]
    exact beats

/-- A range that reads gives the range before its last byte, and that byte. -/
theorem readRange_concat {m : Memory} {i n : Nat} {vs : List Byte} {v : Byte}
    (h : m.readRange i (n + 1) = some (vs ++ [v])) : m.readRange i n = some vs ∧ m.read (i + n) = some v := by
  obtain ⟨length, bytes⟩ := (readRange_eq_some _ _ _ _).1 h
  replace length : vs.length = n := by simpa using length
  refine ⟨(readRange_eq_some _ _ _ _).2 ⟨length, fun k hk => ?_⟩, ?_⟩
  · rw [bytes k (by omega), List.getElem?_append_left (by omega)]
  · rw [bytes n (by omega), ← length, List.getElem?_concat_length]

/-- A refresh from its first cell sends the whole buffer and pends `LEDC`. -/
theorem runTrace_refreshTrace {e : List Byte} (hr : s.halted = false) (ho : s.ownerTxled = .dma)
    (hch : s.chLed = idleChannel) (hv : s.bufTxled.readRange 0 577 = some e) :
    runTrace refreshTrace s = .next
      { s with
        dutyReg := e.getD 576 0, ledOut := s.ledOut ++ e.map .cell,
        chLed := { cnt := 577, done := true, err := .none }, pend := { s.pend with ledc := true } } := by
  obtain rfl | ⟨ds, d, rfl⟩ := List.eq_nil_or_concat' e
  · cases readRange_length hv
  obtain ⟨hcells, hlast⟩ := readRange_concat hv
  have length := readRange_length hcells
  have start : s.chLed.cnt.toNat = 0 := by rw [hch]; rfl
  have hf : s.inFlight .txled .led = true := inFlight_iff.2 ⟨ho, by simp [hch, idleChannel]⟩
  have cells := runTrace_ledcells hr hf (ds := ds) (by omega) (by rw [start, length]; exact hcells)
  have count : (afterCells ds s).chLed.cnt = 576 := by simp [afterCells, length, hch, idleChannel]
  have sent : ledBeat (afterCells ds s) = .next (sendCell d (afterCells ds s)) :=
    ledBeat_send hf (by rw [count]; decide) (by rw [count]; exact hlast)
  have beat : exec .ledcell (afterCells ds s) = .next (sendCell d (afterCells ds s)) :=
    (whenRunning_running hr _).trans sent
  have split : refreshTrace = List.replicate ds.length .ledcell ++ [.ledcell] := by
    rw [length]
    exact List.replicate_succ'
  rw [split, runTrace_append cells, runTrace_cons_next beat, sendCell_eq (s := afterCells ds s) d hf, count]
  simp [afterCells, runTrace, length]

/-! ## One cycle (R186, R189, R106) -/

theorem dispatchable_of_only_pending {t : Irq} (hr : s.halted = false) (hm : s.sectioned = false)
    (hprio : s.curPrio = Config.prio .idle) (hp : s.pend = noPending.set t true) : Dispatchable t s where
  running := hr
  pending := by rw [hp, get_set_same]
  unmasked := hprio.trans_lt (prio_idle_lt t)
  first u hu := by
    by_cases h : u = t
    · rw [h]
    · rw [hp, get_set_other _ _ _ _ h, get_noPending] at hu
      cases hu
  whole := hm

/-- A state written with the pending bits it has, so that what a task makes of them is computed. -/
theorem eq_with_pend {q : PendingBits} (h : s.pend = q) : ∃ s0 : State, s = { s0 with pend := q } :=
  ⟨s, by rw [← h]⟩

/-- `FRAME`, `RXC` and `FSTART` on an idle pipeline with nothing pending begin the refresh of the frame. -/
theorem runTrace_startCycle (a : AwaitingFrame s) (hb : s.busy = false) (ho : s.ownerTxled = .cpu)
    (hpend : s.pend = noPending) (hp : p.length = 72) :
    runTrace (frameTrace p ++ [.rxc, .fstart]) s = .next
      { s with
        contextSwitches := s.contextSwitches + 1 + 1, busy := true, bufRx := s.bufRx.writeRange 0 p,
        bufRgb := s.bufRgb.writeRange 0 p, bufTxled := s.bufTxled.writeRange 0 (enc p), ownerRx := .dma,
        ownerTxled := .dma, chRx := idleChannel, chLed := idleChannel } := by
  obtain ⟨s, rfl⟩ := eq_with_pend hpend
  have stored : (s.bufRx.writeRange 0 p).readRange 0 72 = some p := readRange_writeRange_of_length _ _ _ _ hp
  have copied : (s.bufRgb.writeRange 0 p).readRange 0 72 = some p := readRange_writeRange_of_length _ _ _ _ hp
  rw [runTrace_append (runTrace_wholeFrame a hp)]
  refine Eq.trans (runTrace_cons_next (exec_rxc_accepts ?rxc hb a.owned rfl rfl stored)) ?_
  case rxc => exact dispatchable_of_only_pending a.running a.whole a.prio rfl
  exact runTrace_cons_next (exec_fstart_fills (dispatchable_of_only_pending a.running a.whole a.prio rfl) ho copied)

/-- `REFRESH`, `LEDC`, `LATCHEXP` and `LATCH` from the first cell of a refresh bring the pipeline back to idle. -/
theorem runTrace_finishCycle {e : List Byte} (hr : s.halted = false) (hm : s.sectioned = false)
    (hprio : s.curPrio = Config.prio .idle) (hpend : s.pend = noPending) (ho : s.ownerTxled = .dma)
    (hch : s.chLed = idleChannel) (hv : s.bufTxled.readRange 0 577 = some e) :
    runTrace (refreshTrace ++ [.ledc, .latchexp, .latch]) s = .next
      { s with
        contextSwitches := s.contextSwitches + 1 + 1, frames := s.frames + 1, busy := false, ownerTxled := .cpu,
        latchRunning := false, latchExpired := false, dutyReg := e.getD 576 0,
        ledOut := s.ledOut ++ e.map .cell ++ [.latch], chLed := { cnt := 577, done := true, err := .none } } := by
  obtain ⟨s, rfl⟩ := eq_with_pend hpend
  rw [runTrace_append (runTrace_refreshTrace hr ho hch hv)]
  refine Eq.trans (runTrace_cons_next (exec_ledc_done ?ledc ho rfl rfl)) ?_
  case ledc => exact dispatchable_of_only_pending hr hm hprio rfl
  refine Eq.trans (runTrace_cons_next (exec_latchexp_signals hr rfl rfl)) ?_
  exact runTrace_cons_next (exec_latch_ends (dispatchable_of_only_pending hr hm hprio rfl))

/-- Settles O40: the frame starts a refresh, and the refresh runs back to idle. -/
theorem oneCycleRefreshesTheFrame : Obligations.OneCycleRefreshesTheFrame := by
  unfold Obligations.OneCycleRefreshesTheFrame
  intro s p inv hr hb hpend hc hp
  obtain ⟨_, ho, _⟩ := (inv.pipeline hr).idle hb
  have a := awaitingFrame_of_inv inv hr (by rw [hpend]; rfl) hc
  have start := runTrace_startCycle a hb ho hpend hp
  have split : cycleTrace p =
      (frameTrace p ++ [.rxc, .fstart]) ++ (refreshTrace ++ [.ledc, .latchexp, .latch]) := by
    simp only [cycleTrace, List.append_assoc]
  have run := Eq.trans (runTrace_append start) (runTrace_finishCycle hr a.whole a.prio hpend rfl rfl
    (readRange_writeRange_of_length _ _ _ _ (enc_length p)))
  rw [← split] at run
  refine ⟨_, run, hr, pstate_idle hr hb, pstate_idle hr rfl, ?switches, rfl, rfl, ?low, ?rgb, rfl, hpend, rfl⟩
  case switches => simp [BitVec.add_assoc]
  case low => rw [List.getD_eq_getElem?_getD, enc_getElem?_reset]; rfl
  case rgb => exact readRange_writeRange_of_length _ _ _ _ hp

end Sys2Proof.Proofs
end

section
/-! The encoder as a closed form, as the source's loop and as its inverse, what its cells count, and the refresh that
sends them (43_ws2812b_encoder.md R211 to R221). -/

namespace Sys2Proof.Proofs

open Sys2Proof Sys2Proof.Machine Sys2Proof.Laws

variable {s : State} {p : List Byte} {n : Nat}

/-! ## `CELL` and the closed form (R211, R212) -/

/-- Settles O33: the call is total, and the bounds of 00_scope.md R9 hold by construction. -/
theorem cellGivesTheDutyCode : Obligations.CellGivesTheDutyCode := by
  unfold Obligations.CellGivesTheDutyCode
  exact ⟨fun _ => ⟨rfl, rfl⟩, dutyShort_pos, dutyShort_lt_dutyLong⟩

/-- Cell `24 i + 8 k + j` of a refresh, read from the list. -/
theorem enc_getD_at (p : List Byte) {i k j : Nat} (hi : i < 24) (hk : k < 3) (hj : j < 8) (d : Byte) :
    (enc p).getD (24 * i + 8 * k + j) d = cell ((p.getD (3 * i + channelByte k) 0).getLsbD (7 - j)) := by
  rw [enc_getD p (by omega), encCell_at p i k j hk hj]

/-- Settles O34: green, red and blue stand at the output positions 0, 1 and 2 of their LED. -/
theorem encIsTheClosedForm : Obligations.EncIsTheClosedForm := by
  unfold Obligations.EncIsTheClosedForm
  intro p s hp
  refine ⟨enc p, if_pos hp, enc_length p, fun i j hi hj => ⟨?green, ?red, ?blue⟩, ?reset⟩
  case green => exact enc_getD_at p hi (k := 0) (by decide) hj 0
  case red => exact enc_getD_at p hi (k := 1) (by decide) hj 0
  case blue => exact enc_getD_at p hi (k := 2) (by decide) hj 0
  case reset => rw [List.getD_eq_getElem?_getD, enc_getElem?_reset]; rfl

/-! ## The loop (R213) -/

/-- The group of LED `i`, green before red before blue, is the 24 cells of the closed form from `24 i` on. -/
theorem groupCells_eq_encCells (p : List Byte) (i : Nat) :
    groupCells (p.getD (3 * i + 1) 0) (p.getD (3 * i) 0) (p.getD (3 * i + 2) 0) =
      (List.range 24).map fun m => encCell p (24 * i + m) := by
  rw [groupCells_eq]
  refine List.map_congr_left fun m hm => ?_
  have hm := List.mem_range.1 hm
  have split : 24 * i + m = 24 * i + 8 * (m / 8) + m % 8 := by omega
  rw [split, encCell_at p i (m / 8) (m % 8) (by omega) (by omega)]
  obtain h | h | h : m / 8 = 0 ∨ m / 8 = 1 ∨ m / 8 = 2 := by omega
  all_goals rw [h]; rfl

/-- The loop sends the cells of the closed form, LED by LED. -/
theorem encLoop_eq_enc (p : List Byte) : encLoop p = enc p := by
  simp only [encLoop, enc, Config.nLed, Config.nCells, groupCells_eq_encCells,
    flatMap_range 24 24 fun i m => encCell p (24 * i + m), Nat.div_add_mod]

/-- Settles O35: the loop is the closed form for frames of every length. -/
theorem encLoopIsEnc : Obligations.EncLoopIsEnc := by
  unfold Obligations.EncLoopIsEnc
  exact fun p _ => encLoop_eq_enc p

/-! ## `DECLED` (R219) -/

/-- A byte is the sum of its bits by their weights. -/
theorem byte_eq_sum_bits (v : Byte) :
    BitVec.ofNat 8 ((List.range 8).map fun j => (if v.getLsbD (7 - j) = true then 1 else 0) * 2 ^ (7 - j)).sum = v := by
  revert v; decide

theorem channelByte_lt {k : Nat} (hk : k < 3) : channelByte k < 3 := by
  revert k; decide

/-- The order of the channels is its own inverse. -/
theorem channelByte_channelByte {k : Nat} (hk : k < 3) : channelByte (channelByte k) = k := by
  revert k; decide

/-- The eight cells at output position `k` of LED `i` decode to the byte they were made of. -/
theorem decLedByte_enc (p : List Byte) {i k : Nat} (hi : i < 24) (hk : k < 3) :
    decLedByte (enc p) i k = p.getD (3 * i + channelByte k) 0 := by
  have bits : ∀ j ∈ List.range 8,
      (if (enc p).getD (24 * i + 8 * k + j) 0 = Config.dutyLong then 1 else 0) * 2 ^ (7 - j) =
        (if (p.getD (3 * i + channelByte k) 0).getLsbD (7 - j) = true then 1 else 0) * 2 ^ (7 - j) := fun j hj => by
    rw [enc_getD_at p hi hk (List.mem_range.1 hj)]
    simp only [cell, dutyCell_eq_dutyLong]
  rw [decLedByte, List.map_congr_left bits, byte_eq_sum_bits]

/-- A frame by its positions. -/
theorem map_getD_range (hp : p.length = n) : ((List.range n).map fun m => p.getD m 0) = p :=
  List.ext_getElem (by simp [hp]) fun m _ hm => by simp [hm]

/-- `DECLED` gives the frame back. -/
theorem decLed_enc (hp : p.length = 72) : decLed (enc p) = p := by
  refine Eq.trans (List.map_congr_left fun m hm => ?_) (map_getD_range hp)
  have hm : m < 72 := List.mem_range.1 hm
  have hk : m % 3 < 3 := Nat.mod_lt _ (by decide)
  rw [decLedByte_enc p (by omega) (channelByte_lt hk), channelByte_channelByte hk, Nat.div_add_mod]

/-- Settles O36: a function with a left inverse is injective. -/
theorem decledUndoesEnc : Obligations.DecledUndoesEnc := by
  unfold Obligations.DecledUndoesEnc
  refine ⟨fun p => decLed_enc, fun p q hp hq h => ?_⟩
  rw [← decLed_enc hp, h, decLed_enc hq]

/-! ## What the cells count (R214, R220) -/

/-- The bits of a frame in the order they are sent (R213). -/
def encBits (p : List Byte) : List Bool :=
  (List.range 24).flatMap fun i =>
    msbBits (p.getD (3 * i + 1) 0) ++ msbBits (p.getD (3 * i) 0) ++ msbBits (p.getD (3 * i + 2) 0)

theorem enc_eq_map_encBits (p : List Byte) : enc p = (encBits p).map dutyCell ++ [0] := by
  rw [← encLoop_eq_enc, encBits, List.map_flatMap]; rfl

theorem encBits_length (p : List Byte) : (encBits p).length = 576 := by
  simpa [enc_length] using (congrArg List.length (enc_eq_map_encBits p)).symm

theorem dutyCell_injective : Function.Injective dutyCell := fun a b h => by
  simpa using congrArg cellBit h

/-- The cells of a bit number the bits of that value; the reset cell is none of them. -/
theorem enc_count_dutyCell (p : List Byte) (b : Bool) : (enc p).count (dutyCell b) = (encBits p).count b := by
  rw [enc_eq_map_encBits, List.count_append, List.count_map_of_injective _ _ dutyCell_injective,
    List.count_singleton, beq_false_of_ne (dutyCell_ne_zero b).symm]
  rfl

theorem enc_count_reset (p : List Byte) : (enc p).count 0 = 1 := by
  have no_data_cell : (0 : Byte) ∉ (encBits p).map dutyCell := fun h => by
    obtain ⟨b, -, hb⟩ := List.mem_map.1 h
    exact dutyCell_ne_zero b hb
  rw [enc_eq_map_encBits, List.count_append, List.count_eq_zero.2 no_data_cell]
  rfl

/-- How many bits of a byte are 1. -/
def ones (v : Byte) : Nat := (msbBits v).count true

/-- The order in which the bits are sent does not change how many of them are 1. -/
theorem encBits_count_true (hp : p.length = 72) : (encBits p).count true = (p.map ones).sum := by
  have led (i : Nat) :
      (msbBits (p.getD (3 * i + 1) 0) ++ msbBits (p.getD (3 * i) 0) ++ msbBits (p.getD (3 * i + 2) 0)).count true =
        ((List.range 3).map fun k => ones (p.getD (3 * i + k) 0)).sum := by
    simp [ones, List.range_succ, Nat.add_comm, Nat.add_left_comm]
  calc (encBits p).count true
    _ = ((List.range 24).map fun i => ((List.range 3).map fun k => ones (p.getD (3 * i + k) 0)).sum).sum := by
      simp only [encBits, List.count_flatMap, Function.comp_def, led]
    _ = ((List.range 72).map fun m => ones (p.getD (3 * (m / 3) + m % 3) 0)).sum :=
      (sum_blocks 24 3 fun i k => ones (p.getD (3 * i + k) 0)).symm
    _ = (((List.range 72).map fun m => p.getD m 0).map ones).sum := by
      simp only [Nat.div_add_mod, List.map_map, Function.comp_def]
    _ = (p.map ones).sum := by rw [map_getD_range hp]

/-- Settles O37: the cells are the frame's bits, each by its duty code, and the reset cell. -/
theorem encCountsTheOneBits : Obligations.EncCountsTheOneBits := by
  unfold Obligations.EncCountsTheOneBits
  intro p hp
  have long : (enc p).count Config.dutyLong = (encBits p).count true := enc_count_dutyCell p true
  have short : (enc p).count Config.dutyShort = (encBits p).count false := enc_count_dutyCell p false
  refine ⟨long.trans (encBits_count_true hp), ?_, enc_count_reset p⟩
  rw [long, short, List.count_false_add_count_true, encBits_length]

/-! ## The walker (R216 to R218) -/

/-- The walker's state in a refresh that has sent `n` cells. -/
def walkerAt (n : Nat) : Walker :=
  if n < 576 then .data (n / 24) (n % 24 / 8) (n % 8) else if n = 576 then .reset else .done

theorem walkerState_dma (h : s.ownerTxled = .dma) : walkerState s = walkerAt s.chLed.cnt.toNat := by
  rw [walkerState, h]; rfl

/-- The walker computes the cells of `ENC` one by one. -/
theorem walkerSends_walkerAt (p : List Byte) (h : n < 577) : walkerSends p (walkerAt n) = (enc p)[n]? := by
  obtain data | rfl : n < 576 ∨ n = 576 := by omega
  · rw [walkerAt, if_pos data, enc_getElem? p data]; rfl
  · rw [enc_getElem?_reset]; rfl

/-- The walker's table counts the cells. -/
theorem walkerNext_walkerAt (h : n < 577) : walkerNext (walkerAt n) = walkerAt (n + 1) := by
  obtain data | rfl | rfl : n < 575 ∨ n = 575 ∨ n = 576 := by omega
  · rw [walkerAt, walkerAt, if_pos (by omega), if_pos (by omega), walkerNext]
    split
    · congr 1 <;> omega
    · split
      · congr 1 <;> omega
      · rw [if_pos (by omega)]
        congr 1 <;> omega
  · rfl
  · rfl

/-- Settles O38: the buffer holds `ENC` of `RGB`, and the walker's place in the refresh is the channel's count. -/
theorem ledcellIsTheWalker : Obligations.LedcellIsTheWalker := by
  unfold Obligations.LedcellIsTheWalker
  intro s p inv hr ho hd he hp
  have tr := inv.transfers hr
  have hc : s.chLed.cnt.toNat < 577 := count_lt inv.counts.2.1 (tr.ledDone ho) hd
  obtain ⟨q, hq, hbuf⟩ := tr.ledFilled ho
  obtain rfl : q = p := Option.some.inj (hq.symm.trans hp)
  have hv := read_of_readRange hbuf hc
  have moved : (s.chLed.cnt + 1).toNat = s.chLed.cnt.toNat + 1 := cnt_succ (by omega)
  refine ⟨_, _, (ledcellSendsTheNextCell s hr).1 _ ho hd he hc hv, ?sends, rfl, rfl, ?moves, rfl⟩
  case sends =>
    rw [walkerState_dma ho, walkerSends_walkerAt q hc]
    exact List.getElem?_eq_getElem _
  case moves =>
    rw [walkerState_dma ho, walkerNext_walkerAt hc, ← moved]
    exact walkerState_dma ho

/-! ## The refresh (R221) -/

/-- Settles O39: all cells but the last leave one by one, and the last completes the transfer. -/
theorem refreshSendsTheBuffer : Obligations.RefreshSendsTheBuffer := by
  unfold Obligations.RefreshSendsTheBuffer
  exact fun _ _ hr ho hch hv => runTrace_refreshTrace hr ho hch hv

end Sys2Proof.Proofs
end

section
/-! The idle loop, the telemetry task and the functions on reports (44_telemetry.md R250 to R257, R263). -/

namespace Sys2Proof.Proofs

open Sys2Proof Sys2Proof.Machine Sys2Proof.Laws

variable {s : State} {x a b : Snapshot} {q : List Byte}

/-! ## Cycles and ticks (R250, R255 to R257) -/

/-- The difference of the two readings is the wait between them. -/
theorem measuredWait_next (d : U32) (hr : s.halted = false) :
    measuredWait d s =
      .next { s with cycleCounter := s.cycleCounter + d, sleepCycles := s.sleepCycles + d } := by
  have waited : s.cycleCounter + d - s.cycleCounter = d := add_sub_cancel_left _ _
  calc measuredWait d s
    _ = .next ((s.passCycles d).addSleep (s.cycleCounter + d - s.cycleCounter)) := if_neg (by simp [hr])
    _ = .next ((s.passCycles d).addSleep d) := by rw [waited]

theorem exec_idle_waits (d : U32) (h : IdleDispatchable s) :
    exec (.idle d) s =
      .next { s with cycleCounter := s.cycleCounter + d, sleepCycles := s.sleepCycles + d } := by
  have hr := h.running
  have nothing : ¬ s.pend.any = true := by simp [any_eq_false.2 h.nothingPending]
  have no_run : ¬ (!s.stack.isEmpty) = true := by simp [h.noRun]
  calc exec (.idle d) s
    _ = atomicSection .sleepCycles (measuredWait d) s :=
      (whenRunning_running hr _).trans ((if_neg nothing).trans (if_neg no_run))
    _ = _ := (atomicSection_next (measuredWait_next d hr)).trans (congrArg _ (if_neg (by simp [hr])))

/-- Settles O10: the section waits and restores the priority it found; a pending task comes first. -/
theorem idleAddsTheWait : Obligations.IdleAddsTheWait := by
  unfold Obligations.IdleAddsTheWait
  refine ⟨fun d _ => exec_idle_waits d, fun d s t hr pending => ?_⟩
  exact (whenRunning_running hr _).trans (if_pos (any_eq_true.2 ⟨t, pending⟩))

/-- Settles O11: both are the passing of cycles in a running machine. -/
theorem cyclesPassOnTheCounterAlone : Obligations.CyclesPassOnTheCounterAlone := by
  unfold Obligations.CyclesPassOnTheCounterAlone
  exact fun _ _ hr => ⟨whenRunning_running hr _, whenRunning_running hr _⟩

theorem exec_teltick_requests (hr : s.halted = false) : exec .teltick s = .next (s.request .tele) :=
  whenRunning_running hr _

/-- A request of a pending task merges with it (40_arbitration.md R134). -/
theorem request_of_pending {t : Irq} (h : s.pend.get t = true) : s.request t = s := by
  have same : s.pend.set t true = s.pend := by rw [← h, set_get_self]
  exact congrArg (fun p => { s with pend := p }) same

/-- Settles O12: a tick is the request of `TELE`. -/
theorem teltickPendsTele : Obligations.TeltickPendsTele := by
  unfold Obligations.TeltickPendsTele
  refine fun s => ⟨exec_teltick_requests, fun hr pending => ?merges, fun hh => whenRunning_halted hh _⟩
  case merges => rw [exec_teltick_requests hr, request_of_pending (t := .tele) pending]

/-! ## `TELE` (R251) -/

/-- Settles O44: the run of the nine sections. -/
theorem teleReportsAndClears : Obligations.TeleReportsAndClears := by
  unfold Obligations.TeleReportsAndClears
  exact fun _ h free => exec_tele_reports h free

/-! ## `SER` and `DES` (R252 to R254) -/

/-- Settles O42: the call is total, and its report is the definition of `SER` with the fixed bytes of R8. -/
theorem serIsTheWireFormat : Obligations.SerIsTheWireFormat := by
  unfold Obligations.SerIsTheWireFormat
  exact fun x s => ⟨ser x, rfl, ser_length x, rfl⟩

/-- Every 11 bytes are the payload of some report. -/
theorem exists_snapPayload_eq (h : q.length = 11) : ∃ x, snapPayload x = q := by
  match q, h with
  | [c0, c1, c2, c3, s0, s1, s2, s3, w0, w1, f], _ =>
    exact ⟨{ cycleCounter := ofLe32 c0 c1 c2 c3, sleepCycles := ofLe32 s0 s1 s2 s3,
             contextSwitches := ofLe16 w0 w1, frames := f },
      by simp [snapPayload, le32_ofLe32, le16_ofLe16]⟩

theorem exec_des_snapPayload (x : Snapshot) (s : State) :
    exec (.des (snapPayload x)) s = .next { s with ret := .snapshot x } := by
  change execDes (snapPayload x) s = _
  rw [execDes, des_snapPayload]
  rfl

/-- Settles O43: `DES` undoes the payload of a report, and every 11 bytes are such a payload. -/
theorem serDesRoundTrip : Obligations.SerDesRoundTrip := by
  unfold Obligations.SerDesRoundTrip
  refine ⟨exec_des_snapPayload, fun q s hq => ?_⟩
  obtain ⟨x, rfl⟩ := exists_snapPayload_eq hq
  exact ⟨x, exec_des_snapPayload x s, ser_eq x⟩

/-! ## `UTIL` (R263) -/

theorem util_eq_none (h : b.cycleCounter = a.cycleCounter) : util a b = none := by simp [util, h]

theorem util_eq_some (h : b.cycleCounter ≠ a.cycleCounter) :
    util a b = some
      { num := 100 * (((b.cycleCounter - a.cycleCounter).toNat : Int) - (b.sleepCycles.toNat : Int))
        den := (b.cycleCounter - a.cycleCounter).toNat } := if_neg (sub_ne_zero.2 h)

theorem exec_util_refused (h : util a b = none) (s : State) : exec (.util a b) s = .refused .noCounterAdvance := by
  change execUtil a b s = _
  rw [execUtil, h]

theorem exec_util_answers {f : Fraction} (h : util a b = some f) (s : State) :
    exec (.util a b) s = .next { s with ret := .utilisation f } := by
  change execUtil a b s = _
  rw [execUtil, h]
  rfl

/-- Settles O47: the fraction is the percentage over the common denominator `D`. -/
theorem utilIsTheFormula : Obligations.UtilIsTheFormula := by
  unfold Obligations.UtilIsTheFormula
  refine fun a b s => ⟨fun same => exec_util_refused (util_eq_none same) s, fun advanced => ?_⟩
  have nonzero : (b.cycleCounter - a.cycleCounter).toNat ≠ 0 := fun h =>
    sub_ne_zero.2 advanced (BitVec.eq_of_toNat_eq h)
  refine ⟨_, exec_util_answers (util_eq_some advanced) s, nonzero, ?value⟩
  case value =>
    have : ((b.cycleCounter - a.cycleCounter).toNat : ℚ) ≠ 0 := Nat.cast_ne_zero.2 nonzero
    push_cast
    field_simp

end Sys2Proof.Proofs
end

section
/-! The host's decoder: the three moves of its loop, which fuel and position do not affect, and clean streams
(44_telemetry.md R261, R262). -/

namespace Sys2Proof.Proofs

open Sys2Proof Sys2Proof.Machine Sys2Proof.Laws

variable {z : List Byte} {c : Byte}

/-! ## The three moves (R262) -/

/-- A byte with 12 after it begins no frame: it is no head, or the tail is missing. -/
abbrev NoFrameAt (c : Byte) (z : List Byte) : Prop := 12 ≤ z.length ∧ (c ≠ 0xAA ∨ z.getD 11 0 ≠ 0x55)

theorem decFrom_short (h : z.length < 13) (fuel pos : Nat) : decFrom fuel pos z = ([], pos) := by
  cases fuel with
  | zero => rfl
  | succ fuel => exact if_pos h

theorem decFrom_noFrame (h : NoFrameAt c z) (fuel pos : Nat) :
    decFrom (fuel + 1) pos (c :: z) = decFrom fuel (pos + 1) z := by
  obtain ⟨long, no_frame⟩ := h
  have enough : ¬ (c :: z).length < 13 := by rw [List.length_cons]; omega
  refine (if_neg enough).trans ?_
  by_cases head : c = 0xAA
  · have no_tail := no_frame.resolve_left (not_not.2 head)
    exact (if_neg (not_not.2 head)).trans (if_pos no_tail)
  · exact if_pos head

theorem decFrom_frame (x : Snapshot) (z : List Byte) (fuel pos : Nat) :
    decFrom (fuel + 1) pos (ser x ++ z) = (x :: (decFrom fuel (pos + 13) z).1, (decFrom fuel (pos + 13) z).2) := by
  have enough : ¬ (ser x ++ z).length < 13 := by simp
  have head : (ser x ++ z).getD 0 0 = Config.syncHead := rfl
  have tail : (ser x ++ z).getD 12 0 = Config.syncTail := rfl
  rw [decFrom, if_neg enough, if_neg (not_not.2 head), if_neg (not_not.2 tail), ser_payload, des_snapPayload]
  rfl

/-- A stream is too short for a frame, begins with a byte that begins none, or begins with a frame. -/
theorem stream_cases (z : List Byte) :
    z.length < 13 ∨ (∃ c z', z = c :: z' ∧ NoFrameAt c z') ∨ ∃ x z', z = ser x ++ z' := by
  by_cases short : z.length < 13
  · exact .inl short
  obtain ⟨c, z', rfl⟩ := List.exists_cons_of_length_pos (l := z) (by omega)
  have long : 12 ≤ z'.length := by simpa using short
  by_cases frame : c = 0xAA ∧ z'.getD 11 0 = 0x55
  · obtain ⟨rfl, tail⟩ := frame
    obtain ⟨x, hx⟩ := exists_snapPayload_eq (q := z'.take 11) (by rw [List.length_take]; omega)
    have split : z' = z'.take 11 ++ 0x55 :: z'.drop 12 := by
      rw [← tail, List.getD_eq_getElem _ _ long, List.getElem_cons_drop, List.take_append_drop]
    refine .inr (.inr ⟨x, z'.drop 12, ?_⟩)
    calc 0xAA :: z'
      _ = 0xAA :: (snapPayload x ++ 0x55 :: z'.drop 12) := by rw [hx, ← split]
      _ = ser x ++ z'.drop 12 := rfl
  · exact .inr (.inl ⟨c, z', rfl, long, not_and_or.1 frame⟩)

/-! ## Fuel and position -/

/-- Any two amounts of fuel that cover the stream give the same snapshots, and the position counts from where the loop
began. -/
theorem decFrom_shift {m n : Nat} (hm : z.length ≤ m) (hn : z.length ≤ n) (pos k : Nat) :
    decFrom m (pos + k) z = ((decFrom n pos z).1, (decFrom n pos z).2 + k) := by
  induction m generalizing n pos z with
  | zero =>
    rw [decFrom_short (by omega), decFrom_short (by omega)]
  | succ m ih =>
    obtain short | ⟨c, z, rfl, no_frame⟩ | ⟨x, z, rfl⟩ := stream_cases z
    · rw [decFrom_short short, decFrom_short short]
    · simp only [List.length_cons] at hm hn
      obtain ⟨n, rfl⟩ : ∃ k, n = k + 1 := ⟨n - 1, by omega⟩
      rw [decFrom_noFrame no_frame, decFrom_noFrame no_frame, Nat.add_right_comm pos k 1]
      exact ih (by omega) (by omega) _
    · simp only [List.length_append, ser_length] at hm hn
      obtain ⟨n, rfl⟩ : ∃ k, n = k + 1 := ⟨n - 1, by omega⟩
      rw [decFrom_frame, decFrom_frame, Nat.add_right_comm pos k 13, ih (n := n) (by omega) (by omega)]

theorem decFrom_eq_dec {fuel : Nat} (h : z.length ≤ fuel) (pos : Nat) :
    decFrom fuel pos z = ((dec z).1, (dec z).2 + pos) := by
  simpa [dec] using decFrom_shift h (Nat.le_refl z.length) 0 pos

/-! ## `DEC` by cases -/

theorem dec_short (h : z.length < 13) : dec z = ([], 0) := decFrom_short h _ _

theorem dec_noFrame (h : NoFrameAt c z) : dec (c :: z) = ((dec z).1, (dec z).2 + 1) :=
  (decFrom_noFrame h _ _).trans (decFrom_eq_dec (Nat.le_refl _) _)

theorem dec_frame (x : Snapshot) (z : List Byte) : dec (ser x ++ z) = (x :: (dec z).1, (dec z).2 + 13) := by
  have fuel : (ser x ++ z).length = z.length + 12 + 1 := by rw [List.length_append, ser_length]; omega
  rw [dec, fuel, decFrom_frame, decFrom_eq_dec (by omega), Nat.zero_add]

/-- Settles O45: the call is total, and the loop moves by the three cases. -/
theorem decFollowsItsLoop : Obligations.DecFollowsItsLoop := by
  unfold Obligations.DecFollowsItsLoop
  exact ⟨fun _ _ => rfl, fun _ => dec_short, dec_frame, fun _ _ long no_frame => dec_noFrame ⟨long, no_frame⟩⟩

/-- Settles O46, by induction on the snapshots. -/
theorem cleanStreamDecodes : Obligations.CleanStreamDecodes := by
  unfold Obligations.CleanStreamDecodes
  intro xs
  induction xs with
  | nil => exact dec_short (by decide)
  | cons x xs ih => rw [List.flatMap_cons, dec_frame, ih, List.length_cons, Nat.mul_succ]

end Sys2Proof.Proofs
end

section
/-! Faults: the runs that halt, `HALT`, and what a halted machine refuses (60_exceptions.md R291 to R298). -/

namespace Sys2Proof.Proofs

open Sys2Proof Sys2Proof.Machine Sys2Proof.Laws

variable {s : State}

/-! ## The fatal conditions (R291 to R297) -/

/-- The pairs of R291 are the errors that are flagged, each with its cause. -/
theorem errCause_of_pair {e : XferErr} {c : Cause}
    (h : (e, c) ∈ [(XferErr.overrun, Cause.overrun), (.framing, .framing), (.dmaErr, .dmaErr)]) :
    e ≠ .none ∧ c = errCause e := by
  simp only [List.mem_cons, List.not_mem_nil, or_false, Prod.mk.injEq] at h
  obtain ⟨rfl, rfl⟩ | ⟨rfl, rfl⟩ | ⟨rfl, rfl⟩ := h <;> exact ⟨nofun, rfl⟩

/-- Settles O28: each task's run ends at the release that meets the error, or at the report still leaving. -/
theorem fatalConditionsHaltTheRun : Obligations.FatalConditionsHaltTheRun := by
  unfold Obligations.FatalConditionsHaltTheRun
  refine ⟨fun e c pair => ?errors, fun _ => exec_tele_busy⟩
  obtain ⟨flagged, rfl⟩ := errCause_of_pair pair
  refine ⟨?rxc, ?ledc, ?tele⟩
  case rxc => rintro s h ho rfl; exact exec_rxc_error h ho flagged
  case ledc => rintro s h ho rfl; exact exec_ledc_error h ho flagged
  case tele => rintro s h ho rfl; exact exec_tele_error h ho flagged

/-- Settles O52: in a running machine `HALT` is the raising of its cause. -/
theorem haltRaisesFatal : Obligations.HaltRaisesFatal := by
  unfold Obligations.HaltRaisesFatal
  exact fun _ _ hr hc => (whenRunning_running hr _).trans (if_neg hc)

/-! ## The halted machine (R298) -/

/-- No task runs, neither whole nor by sections. -/
theorem taskStep_halted (hh : s.halted = true) (t : Irq) (fs : List (State → Result)) :
    taskStep t fs s = .refused .machineHalted := by
  cases hm : s.sectioned with
  | false => exact (if_neg (by simp [hm])).trans (if_pos hh)
  | true => exact (if_pos hm).trans (if_pos hh)

theorem exec_halted {i : Instr} (hh : s.halted = true) (hi : i.mayStandInTrace = true)
    (hreset : ∀ c0, i ≠ .reset c0) : exec i s = .refused .machineHalted := by
  cases i with
  | tele | rxc | fstart | ledc | latch => exact taskStep_halted hh _ _
  | idle | rxbyte | ledcell | telbyte | latchexp | teltick | cycadv | xfererr => exact whenRunning_halted hh _
  | reset c0 => exact absurd rfl (hreset c0)
  | _ => cases hi

/-- Settles O53: `RESET` asks nothing of the state, and every other operation first requires a running machine. -/
theorem haltedOnlyResetRuns : Obligations.HaltedOnlyResetRuns := by
  unfold Obligations.HaltedOnlyResetRuns
  exact fun s hh => ⟨fun c0 => ⟨resetTo c0 s, rfl, rfl⟩, fun _ => exec_halted hh⟩

end Sys2Proof.Proofs
end

section
/-! The reset (70_reset_and_hazards.md R330, 10_state.md R46). -/

namespace Sys2Proof.Proofs

open Sys2Proof Sys2Proof.Machine Sys2Proof.Laws

/-- `RESET` is enabled in every state, the halted ones among them (R298, R330). -/
theorem exec_reset (c0 : U32) (s : State) : exec (.reset c0) s = .next (resetTo c0 s) := rfl

/-- Settles O1: `resetTo` is the table, field by field; of `s` it reads only the environment's own data (log 13). -/
theorem resetWritesTheResetTable : Obligations.ResetWritesTheResetTable := by
  unfold Obligations.ResetWritesTheResetTable
  exact exec_reset

end Sys2Proof.Proofs
end
